-- ==== Sys2Proof/Word.lean ====
section
/-! DEFINITION. The two word types of the block: bytes (cache entries, frame bytes) and 32-bit words
(command words, and a frame read as one number). Widths: 10_state.md R10, R14; 30_encoding.md R50, R54. -/

namespace Sys2Proof

/-- Eight bits: a cached gate mask, a frame byte, a polarity byte. -/
abbrev Byte := BitVec 8

/-- Thirty-two bits: a command word (R50), or a frame `{b0, b1, b2, b3}` read as one number (R36). -/
abbrev Word := BitVec 32

end Sys2Proof
end

