-- ==== Sys2Proof/Config.lean ====
section
/-! DEFINITION. What an implementation of the block fixes and the spec leaves open.
There is one such parameter, ADDR_DRIVE_ORDER (00_scope.md R3, 43_address_and_framing.md R116, decision D8):
"OPEN parameter, a permutation of (A0, A1, A2)". The machine carries it as plain data in its state and no
step writes it, so a statement about every state is a statement about all six orders. -/

namespace Sys2Proof

/-- The six permutations of the address lines (A0, A1, A2); a constructor's digits give the order. -/
inductive DriveOrder where
  | a012
  | a021
  | a102
  | a120
  | a201
  | a210
deriving DecidableEq, Repr

/-- The default of R3 and R116: (A0, A1, A2). -/
def Config.defaultDriveOrder : DriveOrder := .a012

end Sys2Proof
end

