-- ==== Sys2Proof/Syntax.lean ====
section
/-! DEFINITION. The abstract operand types (00_scope.md R5), the instructions (30_encoding.md R51, R54: one
constructor per row of spec/opcode_table.json), the wire frame, and the command lines of 30_encoding.md R65. -/

namespace Sys2Proof

/-- Logical gate address, ordinals 0 to 3 (R5). -/
inductive GateAddr where
  | gt0
  | gt1
  | gt2
  | gt3
deriving DecidableEq, Repr

/-- Gate channel `Channel1` .. `Channel8` (R5). -/
inductive GateChan where
  | channel1
  | channel2
  | channel3
  | channel4
  | channel5
  | channel6
  | channel7
  | channel8
deriving DecidableEq, Repr

/-- Logical CV address, ordinals 1 to 7; ordinal 0 is reserved and has no value (R5, R61). -/
inductive CvAddr where
  | cv1
  | cv2
  | cv3
  | cv4
  | cv5
  | cv6
  | cv7
deriving DecidableEq, Repr

/-- CV channel `Channel1` .. `Channel8`: a type of its own, apart from `GateChan` (R5). -/
inductive CvChan where
  | channel1
  | channel2
  | channel3
  | channel4
  | channel5
  | channel6
  | channel7
  | channel8
deriving DecidableEq, Repr

/-- The rows of spec/opcode_table.json: the five commands of R51 and the three wire frames of R54.
A frame is no command. Its constructor stands for the emission of that frame by the running operation. -/
inductive Instr where
  /-- `SETG a, m` (R91). -/
  | setg (a : GateAddr) (m : Byte)
  /-- `GHI a, ch` (R92). -/
  | ghi (a : GateAddr) (ch : GateChan)
  /-- `GLO a, ch` (R93). -/
  | glo (a : GateAddr) (ch : GateChan)
  /-- `CVRAW c, ch, v` (R101). -/
  | cvraw (c : CvAddr) (ch : CvChan) (v : BitVec 16)
  /-- `CVPOL c, p` (R102). -/
  | cvpol (c : CvAddr) (p : Byte)
  /-- Row `FRAME_GATE`, the gate update frame with gate byte `g` (R55). -/
  | frameGate (g : Byte)
  /-- Row `FRAME_CVRAW`, the CV raw frame (R57): `k` is the code of `ch`, `h l n` are the nibbles of `v`. -/
  | frameCvraw (ch : CvChan) (v : BitVec 16)
  /-- Row `FRAME_CVPOL`, the CV polarity frame (R56). -/
  | frameCvpol (p : Byte)
deriving DecidableEq, Repr

/-- The four bytes of a wire frame, `b0` sent first (R36). -/
structure Frame where
  b0 : Byte
  b1 : Byte
  b2 : Byte
  b3 : Byte
deriving DecidableEq, Repr

/-- Why a command word is illegal: the classes that R62 lists. -/
inductive IllegalWord where
  /-- `OP` is 0x0 or 0x6 to 0xF. -/
  | opcode
  /-- `ZERO` is not 0. -/
  | zeroField
  /-- A gate command with bit 27 set. -/
  | gateAddress
  /-- A CV command with `ADDR = 0`, the reserved CV address (R61). -/
  | cvAddressZero
  /-- `CHAN` is not 0 in a command that does not use it. -/
  | chanField
  /-- A bit of `DATA` that the command does not use is set. -/
  | dataField
deriving DecidableEq, Repr

/-- A command line of R65 with its operands as the numbers written in it (R66): `GtN` and `CvN` are written as
`N`, `ChannelN` as `N`. It spells a command only when it is well formed (`CommandLine.wellFormed`). -/
inductive CommandLine where
  | setg (addr mask : Nat)
  | ghi (addr chan : Nat)
  | glo (addr chan : Nat)
  | cvraw (addr chan value : Nat)
  | cvpol (addr pol : Nat)
deriving DecidableEq, Repr

end Sys2Proof
end

