-- ==== Sys2Proof/WellFormed.lean ====
section
/-! DEFINITION. Which instructions are commands, and which command lines spell one.
An `Instr` is well formed by its types: 00_scope.md R5 closes them ("The type `CvAddr` has no such value", R61).
The checks of 30_encoding.md R66 stand on the written line: "A number outside its range, or a name outside its
list, spells no command." -/

namespace Sys2Proof

/-- The five commands of R51; a wire frame is no command. -/
def Instr.isCommand : Instr → Bool
  | .setg _ _ => true
  | .ghi _ _ => true
  | .glo _ _ => true
  | .cvraw _ _ _ => true
  | .cvpol _ _ => true
  | .frameGate _ => false
  | .frameCvraw _ _ => false
  | .frameCvpol _ => false

/-- `Gt0` to `Gt3` (R66). -/
def gateAddrInRange (n : Nat) : Bool := n < 4

/-- `Cv1` to `Cv7` (R66). -/
def cvAddrInRange (n : Nat) : Bool := 1 ≤ n && n ≤ 7

/-- `Channel1` to `Channel8` (R66). -/
def chanInRange (n : Nat) : Bool := 1 ≤ n && n ≤ 8

/-- `<mask8>` and `<pol8>`: 0 to 255 (R66). -/
def byteInRange (n : Nat) : Bool := n < 256

/-- `<value16>`: 0 to 65535 (R66). -/
def valueInRange (n : Nat) : Bool := n < 65536

/-- The range checks of R66 on a written command line. -/
def CommandLine.wellFormed : CommandLine → Bool
  | .setg addr mask => gateAddrInRange addr && byteInRange mask
  | .ghi addr chan => gateAddrInRange addr && chanInRange chan
  | .glo addr chan => gateAddrInRange addr && chanInRange chan
  | .cvraw addr chan value => cvAddrInRange addr && chanInRange chan && valueInRange value
  | .cvpol addr pol => cvAddrInRange addr && byteInRange pol

end Sys2Proof
end

