-- ==== Sys2Proof/Decode.lean ====
section
/-! DEFINITION. The encodings of 30_encoding.md: the fields of a command word, its decoder (total, rejecting by
name), the wire frames and their readings, and after the decoders the encoder.
Two things are encoded and they do not share a port: a command word is what the caller presents, a frame is what
the block puts on the bus. -/

namespace Sys2Proof

/-! ### Fields of a command word (R50) -/

/-- `OP` = bits [31:28]. -/
def opField (w : Word) : BitVec 4 := w.extractLsb' 28 4

/-- `ADDR` = bits [27:25]. -/
def addrField (w : Word) : BitVec 3 := w.extractLsb' 25 3

/-- `CHAN` = bits [24:22]. -/
def chanField (w : Word) : BitVec 3 := w.extractLsb' 22 3

/-- `ZERO` = bits [21:16]. -/
def zeroField (w : Word) : BitVec 6 := w.extractLsb' 16 6

/-- `DATA` = bits [15:0]. -/
def dataField (w : Word) : BitVec 16 := w.extractLsb' 0 16

/-- `DATA[15:8]`. -/
def dataHigh (w : Word) : Byte := w.extractLsb' 8 8

/-- `DATA[7:0]`. -/
def dataLow (w : Word) : Byte := w.extractLsb' 0 8

/-! ### Ordinals (R5, R52) -/

/-- The gate address with this ordinal; with bit 27 set there is none (R52, R62). -/
def gateAddrOf (v : BitVec 3) : Option GateAddr :=
  match v.toNat with
  | 0 => some .gt0
  | 1 => some .gt1
  | 2 => some .gt2
  | 3 => some .gt3
  | _ => none

/-- The CV address with this ordinal; ordinal 0 is reserved (R61). -/
def cvAddrOf (v : BitVec 3) : Option CvAddr :=
  match v.toNat with
  | 1 => some .cv1
  | 2 => some .cv2
  | 3 => some .cv3
  | 4 => some .cv4
  | 5 => some .cv5
  | 6 => some .cv6
  | 7 => some .cv7
  | _ => none

/-- `Channel(CHAN + 1)` as a gate channel (R53). -/
def gateChanOf (v : BitVec 3) : GateChan :=
  match v.toNat with
  | 0 => .channel1
  | 1 => .channel2
  | 2 => .channel3
  | 3 => .channel4
  | 4 => .channel5
  | 5 => .channel6
  | 6 => .channel7
  | _ => .channel8

/-- `Channel(CHAN + 1)` as a CV channel (R53). -/
def cvChanOf (v : BitVec 3) : CvChan :=
  match v.toNat with
  | 0 => .channel1
  | 1 => .channel2
  | 2 => .channel3
  | 3 => .channel4
  | 4 => .channel5
  | 5 => .channel6
  | 6 => .channel7
  | _ => .channel8

/-- The ordinal of a gate address (R5), as the `ADDR` field carries it. -/
def gateOrdinal : GateAddr → BitVec 3
  | .gt0 => 0
  | .gt1 => 1
  | .gt2 => 2
  | .gt3 => 3

/-- The ordinal of a CV address (R5), as the `ADDR` field carries it. -/
def cvOrdinal : CvAddr → BitVec 3
  | .cv1 => 1
  | .cv2 => 2
  | .cv3 => 3
  | .cv4 => 4
  | .cv5 => 5
  | .cv6 => 6
  | .cv7 => 7

/-- `ChannelN` as `N - 1` (R52). -/
def gateChanIndex : GateChan → BitVec 3
  | .channel1 => 0
  | .channel2 => 1
  | .channel3 => 2
  | .channel4 => 3
  | .channel5 => 4
  | .channel6 => 5
  | .channel7 => 6
  | .channel8 => 7

/-- `ChannelN` as `N - 1` (R52). -/
def cvChanIndex : CvChan → BitVec 3
  | .channel1 => 0
  | .channel2 => 1
  | .channel3 => 2
  | .channel4 => 3
  | .channel5 => 4
  | .channel6 => 5
  | .channel7 => 6
  | .channel8 => 7

/-! ### The decoder of the command port (R53) -/

/-- Row `SETG` of R52. -/
def readSetg (w : Word) : Except IllegalWord Instr :=
  match gateAddrOf (addrField w) with
  | none => .error .gateAddress
  | some a =>
    if chanField w ≠ 0 then .error .chanField
    else if dataHigh w ≠ 0 then .error .dataField
    else .ok (.setg a (dataLow w))

/-- Row `GHI` of R52. -/
def readGhi (w : Word) : Except IllegalWord Instr :=
  match gateAddrOf (addrField w) with
  | none => .error .gateAddress
  | some a => if dataField w ≠ 0 then .error .dataField else .ok (.ghi a (gateChanOf (chanField w)))

/-- Row `GLO` of R52. -/
def readGlo (w : Word) : Except IllegalWord Instr :=
  match gateAddrOf (addrField w) with
  | none => .error .gateAddress
  | some a => if dataField w ≠ 0 then .error .dataField else .ok (.glo a (gateChanOf (chanField w)))

/-- Row `CVRAW` of R52. -/
def readCvraw (w : Word) : Except IllegalWord Instr :=
  match cvAddrOf (addrField w) with
  | none => .error .cvAddressZero
  | some c => .ok (.cvraw c (cvChanOf (chanField w)) (dataField w))

/-- Row `CVPOL` of R52. -/
def readCvpol (w : Word) : Except IllegalWord Instr :=
  match cvAddrOf (addrField w) with
  | none => .error .cvAddressZero
  | some c =>
    if chanField w ≠ 0 then .error .chanField
    else if dataHigh w ≠ 0 then .error .dataField
    else .ok (.cvpol c (dataLow w))

/-- `Decode` of R53 with the reason of a rejection: total on all words, and every reserved field is checked
(R62, R63). -/
def readCommand (w : Word) : Except IllegalWord Instr :=
  if zeroField w ≠ 0 then .error .zeroField
  else if opField w = 0x1 then readSetg w
  else if opField w = 0x2 then readGhi w
  else if opField w = 0x3 then readGlo w
  else if opField w = 0x4 then readCvraw w
  else if opField w = 0x5 then readCvpol w
  else .error .opcode

/-- `Decode(w)` of R53: the command a word spells; `none` is `ILLEGAL`. -/
def decodeCommand (w : Word) : Option Instr :=
  match readCommand w with
  | .ok i => some i
  | .error _ => none

/-! ### Wire frames (R54 to R58) -/

/-- The constant of byte 0 of a CV raw frame, `CV_RAW_BASE` (R3, R57; 90_conflicts.md C1).
DESIGN CHOICE of the spec (decision D6): 0x00; the rejected reading is 0x03. Unsafe, log 7. -/
def cvRawBase : Byte := 0x00

/-- The CV channel code table (R58), "Non-monotonic - preserve exactly". -/
def cvCode : CvChan → Byte
  | .channel1 => 0x00
  | .channel2 => 0x20
  | .channel3 => 0x40
  | .channel4 => 0x60
  | .channel5 => 0x70
  | .channel6 => 0x50
  | .channel7 => 0x30
  | .channel8 => 0x10

/-- The channel whose code has this value in bits [6:4] (R58 read backwards; R104). -/
def cvChanOfCode (k : BitVec 3) : CvChan :=
  match k.toNat with
  | 0 => .channel1
  | 1 => .channel8
  | 2 => .channel2
  | 3 => .channel7
  | 4 => .channel3
  | 5 => .channel6
  | 6 => .channel4
  | _ => .channel5

/-- Gate update frame `[0x04, 0x00, gateByte, 0x00]` (R55). -/
def gateFrame (g : Byte) : Frame := ⟨0x04, 0x00, g, 0x00⟩

/-- CV raw frame (R57). -/
def cvRawFrame (ch : CvChan) (v : BitVec 16) : Frame :=
  ⟨cvRawBase ||| cvCode ch ||| (v.extractLsb' 12 4).setWidth 8, v.extractLsb' 4 8, v.extractLsb' 0 4 ++ 0#4, 0x00⟩

/-- CV polarity frame `[0x14, 0x00, polarityByte, 0x00]` (R56). -/
def cvPolFrame (p : Byte) : Frame := ⟨0x14, 0x00, p, 0x00⟩

/-- A frame read as the 32-bit number `{b0, b1, b2, b3}` (R36). -/
def Frame.toWord (f : Frame) : Word := f.b0 ++ f.b1 ++ f.b2 ++ f.b3

/-- The four bytes of a number read as a frame, `b0` the most significant (R36). -/
def frameOfWord (w : Word) : Frame :=
  ⟨w.extractLsb' 24 8, w.extractLsb' 16 8, w.extractLsb' 8 8, w.extractLsb' 0 8⟩

/-- The gate reading of a frame: match 0x04000000, mask 0xFFFF00FF (R60). -/
def readGateFrame (w : Word) : Option Instr :=
  if w &&& 0xFFFF00FF = 0x04000000 then some (.frameGate (w.extractLsb' 8 8)) else none

/-- The polarity reading of a frame: match 0x14000000, mask 0xFFFF00FF (R60). -/
def readPolFrame (w : Word) : Option Instr :=
  if w &&& 0xFFFF00FF = 0x14000000 then some (.frameCvpol (w.extractLsb' 8 8)) else none

/-- The CV raw reading of a frame: match 0x00000000, mask 0x80000FFF (R60), operands by R57 and R104. -/
def readRawFrame (w : Word) : Option Instr :=
  if w &&& 0x80000FFF = 0x00000000 then
    some (.frameCvraw (cvChanOfCode (w.extractLsb' 28 3)) (w.extractLsb' 12 16))
  else none

/-- Every reading of a 32-bit number as a frame. There can be two: "For out-of-range values they are not"
disjoint (R60). -/
def frameReadings (w : Word) : List Instr :=
  (readGateFrame w).toList ++ (readPolFrame w).toList ++ (readRawFrame w).toList

/-- The first reading of a number as a frame, gate and polarity before CV raw.
DESIGN CHOICE (log 10): the spec gives a frame that has two readings no preferred one. -/
def decodeFrame (w : Word) : Option Instr := (frameReadings w).head?

/-! ### The encoder (R52, R55, R56, R57) -/

/-- A command word from its fields (R50), `ZERO` being 0. -/
def packCommand (op : BitVec 4) (addr chan : BitVec 3) (data : BitVec 16) : Word :=
  op ++ addr ++ chan ++ 0#6 ++ data

/-- `{0x00, m}` as a `DATA` field (R52). -/
def byteData (m : Byte) : BitVec 16 := 0#8 ++ m

/-- `Encode` (R53): the word of a command from its row of R52, and the number of a frame from R55 to R57. -/
def encode : Instr → Word
  | .setg a m => packCommand 0x1 (gateOrdinal a) 0 (byteData m)
  | .ghi a ch => packCommand 0x2 (gateOrdinal a) (gateChanIndex ch) 0
  | .glo a ch => packCommand 0x3 (gateOrdinal a) (gateChanIndex ch) 0
  | .cvraw c ch v => packCommand 0x4 (cvOrdinal c) (cvChanIndex ch) v
  | .cvpol c p => packCommand 0x5 (cvOrdinal c) 0 (byteData p)
  | .frameGate g => (gateFrame g).toWord
  | .frameCvraw ch v => (cvRawFrame ch v).toWord
  | .frameCvpol p => (cvPolFrame p).toWord

/-! ### Command lines (R65, R66) -/

/-- The command a written line spells, if its operands are in range (R66). -/
def CommandLine.instr (l : CommandLine) : Option Instr :=
  if l.wellFormed then
    match l with
    | .setg addr mask => (gateAddrOf (BitVec.ofNat 3 addr)).map fun a => .setg a (BitVec.ofNat 8 mask)
    | .ghi addr chan => (gateAddrOf (BitVec.ofNat 3 addr)).map fun a => .ghi a (gateChanOf (BitVec.ofNat 3 (chan - 1)))
    | .glo addr chan => (gateAddrOf (BitVec.ofNat 3 addr)).map fun a => .glo a (gateChanOf (BitVec.ofNat 3 (chan - 1)))
    | .cvraw addr chan value =>
      (cvAddrOf (BitVec.ofNat 3 addr)).map fun c => .cvraw c (cvChanOf (BitVec.ofNat 3 (chan - 1))) (BitVec.ofNat 16 value)
    | .cvpol addr pol => (cvAddrOf (BitVec.ofNat 3 addr)).map fun c => .cvpol c (BitVec.ofNat 8 pol)
  else none

/-! ### The host's view of the decoder -/

/-- The row of spec/opcode_table.json that a 32-bit number is read as. The table numbers two encodings over the same 32 bits,
command words and frames, and a number can stand for both.
DESIGN CHOICE (log 10): a frame with the two header bytes of R55 or R56 first, then a command word, then a CV raw frame. Gate
and polarity frames meet the command words in one number only, 0x14000000, which the command port reads as `SETG Gt2, 0x00`. -/
def tableReading (w : Word) : Option Instr :=
  ((readGateFrame w).toList ++ (readPolFrame w).toList ++ (decodeCommand w).toList ++ (readRawFrame w).toList).head?

/-- The instruction a table word of `nbits` bits stands for. -/
def decodeTableWord (nbits w : Nat) : Option Instr := tableReading (BitVec.ofNat 32 (w % 2 ^ nbits))

end Sys2Proof
end

