-- ==== Sys2Proof/Machine/State.lean ====
section
/-! DEFINITION. The state of the block (10_state.md), the types of its fields, and the state after reset.
Plain data throughout. INVENTORY.md lists every field with its rule and its reset value. -/

namespace Sys2Proof.Machine

/-- A pin level (R4): low, high, or `X`, "unspecified level". Two pins at `X` are not known to be equal (log 15). -/
inductive Level where
  | low
  | high
  | x
deriving DecidableEq, Repr

/-- The four output pins (R5). -/
inductive Line where
  | cs
  | a0
  | a1
  | a2
deriving DecidableEq, Repr

/-- An address pattern `(l0, l1, l2)`, `true` for logic high (R4). -/
structure Pattern where
  l0 : Bool
  l1 : Bool
  l2 : Bool
deriving DecidableEq, Repr

/-- The suspending and the non-suspending form of a bus write (R5). -/
inductive Mode where
  | susp
  | block
deriving DecidableEq, Repr

/-- An answer of the environment (R5). -/
inductive Ans where
  | ok
  | fail
deriving DecidableEq, Repr

/-- The two failure kinds (R5, R130). -/
inductive Cause where
  | pin
  | bus
deriving DecidableEq, Repr

/-- What a `RET` event names (R15). -/
inductive Op where
  | init
  | setg
  | ghi
  | glo
  | cvraw
  | cvpol
  | illegal
deriving DecidableEq, Repr

/-- The phase register `PH` (R16). -/
inductive Phase where
  | unbuilt
  | init
  | ready
  | busy
  | faulted
deriving DecidableEq, Repr

/-- The fault register `FLT` (R17). -/
inductive FaultReg where
  | none
  | pin
  | bus
deriving DecidableEq, Repr

/-- The result register `RES` (R18). -/
inductive Result where
  | ok
  | fatalPin
  | fatalBus
  | rejected
deriving DecidableEq, Repr

/-- An entry of the trace `T` (R15). -/
inductive Event where
  /-- One drive of one latch. -/
  | pin (line : Line) (level : Bool) (ans : Ans)
  /-- One 4-byte bus write. -/
  | bus (frame : Frame) (mode : Mode) (ans : Ans)
  /-- The end of `INIT` or of a command. -/
  | ret (op : Op) (res : Result)
deriving DecidableEq, Repr

/-- One step of a fixed step list (R16, R124). -/
inductive MicroOp where
  /-- Drive a latch; a `fail` raises PinFailure (R116, R118 (a), (c); R81 for its first drive). -/
  | drive (line : Line) (level : Bool)
  /-- Load the frame register (R117). -/
  | build (frame : Frame)
  /-- Hand the frame register to the bus; a `fail` goes on with the clean-up drive (R118 (b)). -/
  | write (mode : Mode)
  /-- The clean-up drive of chip-select high after a bus failure, then BusFailure (R118 (b)). -/
  | cleanUp
deriving DecidableEq, Repr

/-- The gate-mask cache `G[0]` .. `G[3]` (R10). -/
structure GateCache where
  g0 : Byte
  g1 : Byte
  g2 : Byte
  g3 : Byte
deriving DecidableEq, Repr

/-- The state of the block, with its inputs and its one open parameter. -/
structure State where
  /-- `G`, the gate-mask cache (R10). -/
  g : GateCache
  /-- The chip-select latch `CS` (R13). -/
  cs : Level
  /-- The address latch `A[0]` (R13). -/
  a0 : Level
  /-- The address latch `A[1]` (R13). -/
  a1 : Level
  /-- The address latch `A[2]` (R13). -/
  a2 : Level
  /-- The frame register `FB` (R14). -/
  fb : Frame
  /-- The phase register `PH` (R16). -/
  ph : Phase
  /-- The fault register `FLT` (R17). -/
  flt : FaultReg
  /-- The result register `RES` (R18). -/
  res : Result
  /-- The trace `T`, oldest event first (R15). -/
  trace : List Event
  /-- The operation that is running in `INIT` and `BUSY`; no content in the other phases (R16, log 5). -/
  op : Op
  /-- The position in its step list: the steps still to run (R16, log 5). -/
  todo : List MicroOp
  /-- ADDR_DRIVE_ORDER, a parameter no step writes (R3, R26, log 6). -/
  order : DriveOrder
  /-- Input: the reset port, `true` while asserted (R24, log 3). -/
  rst : Bool
  /-- Input: the words the caller presents, in order; `cmd_valid` is "not empty", `cmd_word` is the first (R21, log 12). -/
  cmds : List Word
  /-- Input: the answers the environment has given and no drive or write has taken yet (R113, log 1). -/
  answers : List Ans
deriving DecidableEq, Repr

/-- Reasons for which the machine itself stops. There is none, so the type has no constructor: the two failures of
R130 are exceptions whose entry R134 describes, and they are next states; "Nothing else is an exception" (R133).
Safe: no behaviour is cut short (log 13). -/
inductive Fault where
deriving DecidableEq, Repr

/-- Reasons for having no meaning. -/
inductive Refusal where
  /-- Raised by `exec`'s arm of an instruction without a meaning, and by nothing else; no arm does so now.
  Safe: a refused instruction has no next state. -/
  | notModelled (mnemonic : String)
deriving DecidableEq, Repr

/-- The state at the release of reset (R25). `FB` is "unspecified (any value)" there and zero here: DESIGN CHOICE,
unsafe, log 4. `op` and `todo` have no content in `UNBUILT`: DESIGN CHOICE, log 5. `order` is the spec's default (log 6).
Nothing is presented and nothing answered yet (log 1, log 12). -/
def State.reset : State where
  g := ⟨0x00, 0x00, 0x00, 0x00⟩
  cs := .x
  a0 := .x
  a1 := .x
  a2 := .x
  fb := ⟨0x00, 0x00, 0x00, 0x00⟩
  ph := .unbuilt
  flt := .none
  res := .ok
  trace := []
  op := .init
  todo := []
  order := Config.defaultDriveOrder
  rst := false
  cmds := []
  answers := []

end Sys2Proof.Machine
end

