-- ==== Sys2Proof/Machine/Flags.lean ====
section
/-! DEFINITION. The codes of the status elements and the outputs computed from them (10_state.md R16 to R19, R21, R24).
There are no arithmetic flags: the block has "no condition codes or flags" (R20). -/

namespace Sys2Proof.Machine

/-- `PH` codes (R19). -/
def phaseCode : Phase → BitVec 3
  | .unbuilt => 0
  | .init => 1
  | .ready => 2
  | .busy => 3
  | .faulted => 4

/-- `FLT` codes (R17). -/
def faultCode : FaultReg → BitVec 2
  | .none => 0
  | .pin => 1
  | .bus => 2

/-- `RES` codes (R18). -/
def resultCode : Result → BitVec 2
  | .ok => 0
  | .fatalPin => 1
  | .fatalBus => 2
  | .rejected => 3

/-- `STATUS`: bits [2:0] `PH`, bits [4:3] `FLT`, bits [6:5] `RES`, bit [7] 0 (R19). -/
def status (s : State) : Byte := 0#1 ++ resultCode s.res ++ faultCode s.flt ++ phaseCode s.ph

/-- `cmd_ready` "is 1 exactly when `PH = READY`" (R21). -/
def cmdReady (s : State) : Bool := s.ph == .ready

/-- `cmd_valid` (R21). -/
def cmdValid (s : State) : Bool := !s.cmds.isEmpty

/-- `ret_valid` "pulses at each `RET` event" (R24): its level at an event. -/
def retValid : Event → Bool
  | .pin _ _ _ => false
  | .bus _ _ _ => false
  | .ret _ _ => true

/-- An operation is running: `PH` is `INIT` or `BUSY` (R16). -/
def running (s : State) : Bool := s.ph == .init || s.ph == .busy

/-- The `FLT` value of a cause (R134). -/
def faultOf : Cause → FaultReg
  | .pin => .pin
  | .bus => .bus

/-- The `RES` value of a cause (R134). -/
def fatalOf : Cause → Result
  | .pin => .fatalPin
  | .bus => .fatalBus

end Sys2Proof.Machine
end

