-- ==== Sys2Proof/Machine/Operands.lean ====
section
/-! DEFINITION. What an operand stands for: address patterns (20_memory.md R31, R32), the gate bit mask
(30_encoding.md R59), pin levels (00_scope.md R4) and the drive order (43_address_and_framing.md R116). -/

namespace Sys2Proof.Machine

/-- The gate address table (R31), "the contract the driver must reproduce exactly". -/
def gatePattern : GateAddr → Pattern
  | .gt0 => ⟨false, false, false⟩
  | .gt1 => ⟨true, false, false⟩
  | .gt2 => ⟨false, true, false⟩
  | .gt3 => ⟨true, true, false⟩

/-- The CV address table (R32). -/
def cvPattern : CvAddr → Pattern
  | .cv1 => ⟨true, false, false⟩
  | .cv2 => ⟨false, true, false⟩
  | .cv3 => ⟨true, true, false⟩
  | .cv4 => ⟨false, false, true⟩
  | .cv5 => ⟨true, false, true⟩
  | .cv6 => ⟨false, true, true⟩
  | .cv7 => ⟨true, true, true⟩

/-- `Bit(ChannelN) = 0x01 << (N - 1)` (R59). DESIGN CHOICE of the spec for the channels other than 1 and 3
(decision D20). Unsafe, log 8. -/
def gateBit (ch : GateChan) : Byte := 0x01#8 <<< (gateChanIndex ch).toNat

/-- The level a latch takes when it is driven (R114). -/
def levelOf : Bool → Level
  | false => .low
  | true => .high

/-- The lines in the order they are driven (R116, decision D8). -/
def driveLines : DriveOrder → List Line
  | .a012 => [.a0, .a1, .a2]
  | .a021 => [.a0, .a2, .a1]
  | .a102 => [.a1, .a0, .a2]
  | .a120 => [.a1, .a2, .a0]
  | .a201 => [.a2, .a0, .a1]
  | .a210 => [.a2, .a1, .a0]

/-- The level a pattern gives an address line; chip-select carries no address, and `driveLines` does not list it. -/
def Pattern.at (p : Pattern) : Line → Bool
  | .a0 => p.l0
  | .a1 => p.l1
  | .a2 => p.l2
  | .cs => true

end Sys2Proof.Machine
end

