-- ==== Sys2Proof/Machine/Ops.lean ====
section
/-! DEFINITION. The primitives of 43_address_and_framing.md, taking an exception (60_exceptions.md R134) and reset
(10_state.md R25), which is the only way back from one (R140).
An operation is a list of steps (R124: "it runs fixed step lists"). `run` runs one until it returns, raises, or needs an
answer the environment has not given; then the position is kept (R16, R113). -/

namespace Sys2Proof.Machine

/-! ### Registers -/

/-- `G[a]` (R10). -/
def State.gate (s : State) : GateAddr → Byte
  | .gt0 => s.g.g0
  | .gt1 => s.g.g1
  | .gt2 => s.g.g2
  | .gt3 => s.g.g3

/-- `G[a] <- v` (R10). -/
def State.setGate (s : State) (a : GateAddr) (v : Byte) : State :=
  match a with
  | .gt0 => { s with g := { s.g with g0 := v } }
  | .gt1 => { s with g := { s.g with g1 := v } }
  | .gt2 => { s with g := { s.g with g2 := v } }
  | .gt3 => { s with g := { s.g with g3 := v } }

/-- The latch of a line (R13). -/
def State.latch (s : State) : Line → Level
  | .cs => s.cs
  | .a0 => s.a0
  | .a1 => s.a1
  | .a2 => s.a2

/-- Set the latch of a line (R114). -/
def State.setLatch (s : State) (l : Line) (v : Level) : State :=
  match l with
  | .cs => { s with cs := v }
  | .a0 => { s with a0 := v }
  | .a1 => { s with a1 := v }
  | .a2 => { s with a2 := v }

/-- `T <- T ++ [e]` (R4). -/
def State.record (s : State) (e : Event) : State := { s with trace := s.trace ++ [e] }

/-- `BuildFrame`: all four bytes at once, no event (R117). -/
def State.buildFrame (s : State) (f : Frame) : State := { s with fb := f }

/-- The environment's answers that have not been taken yet (R113). -/
def State.setAnswers (s : State) (as : List Ans) : State := { s with answers := as }

/-! ### Primitives that ask the environment -/

/-- `env()`: the next answer, or nothing when the environment has not answered (R113). -/
def env (s : State) : Option (Ans × State) :=
  match s.answers with
  | [] => none
  | r :: rest => some (r, s.setAnswers rest)

/-- What a drive leaves in its latch: the driven level, or `X` after `fail` (R114). -/
def latchAfter (level : Bool) : Ans → Level
  | .ok => levelOf level
  | .fail => .x

/-- `DrivePin(line, level)` (R114). It does not raise. -/
def drivePin (l : Line) (level : Bool) (s : State) : Option (Ans × State) :=
  match env s with
  | none => none
  | some (r, s') => some (r, (s'.setLatch l (latchAfter level r)).record (.pin l level r))

/-- `BusWrite(mode)` (R115). It writes no register and does not raise. -/
def busWrite (mode : Mode) (s : State) : Option (Ans × State) :=
  match env s with
  | none => none
  | some (r, s') => some (r, s'.record (.bus s'.fb mode r))

/-! ### Taking an exception, returning, waiting -/

/-- `FLT` after a `raise`: the cause, if `FLT` was `NONE` (R134). -/
def raisedFault (old : FaultReg) (x : Cause) : FaultReg :=
  match old with
  | .none => faultOf x
  | .pin => .pin
  | .bus => .bus

/-- `raise` (R134): the remaining steps are skipped, `FLT`, `RES`, the `RET` event and `PH`; nothing is saved (R135). -/
def raise (x : Cause) (s : State) : State :=
  { s with
    flt := raisedFault s.flt x
    res := fatalOf x
    trace := s.trace ++ [.ret s.op (fatalOf x)]
    ph := .faulted
    todo := [] }

/-- The tail of `Exec` (R120) and of `INIT` (R81): `RES <- OK`, the `RET` event, `PH <- READY`. -/
def complete (s : State) : State :=
  { s with
    res := .ok
    trace := s.trace ++ [.ret s.op .ok]
    ph := .ready
    todo := [] }

/-- The environment has not answered: the block stays in the step that asked (R113). -/
def suspend (steps : List MicroOp) (s : State) : State := { s with todo := steps }

/-- After a bus write answered `fail`: chip-select high once, "answer discarded", then BusFailure (R118 (b)). -/
def cleanUp (s : State) : State :=
  match drivePin .cs true s with
  | none => suspend [.cleanUp] s
  | some (_, s') => raise .bus s'

/-! ### Step lists -/

/-- `AssertAddr(p)`: all three lines, in ADDR_DRIVE_ORDER, whatever the latches hold (R110, R116). -/
def assertAddr (order : DriveOrder) (p : Pattern) : List MicroOp :=
  (driveLines order).map fun l => .drive l (p.at l)

/-- `FramedTransfer(mode)`: chip-select low, bus write, chip-select high (R118). -/
def framedTransfer (mode : Mode) : List MicroOp := [.drive .cs false, .write mode, .drive .cs true]

/-- The emission of a frame: `BuildFrame`, then `FramedTransfer` (R117, R118). -/
def emitFrame (f : Frame) (mode : Mode) : List MicroOp := .build f :: framedTransfer mode

/-- `MemWrite(p, 4, f, mode)` (R119). -/
def memWrite (order : DriveOrder) (p : Pattern) (f : Frame) (mode : Mode) : List MicroOp :=
  assertAddr order p ++ emitFrame f mode

/-- Run a step list. -/
def run : List MicroOp → State → State
  | [], s => complete s
  | .drive l level :: rest, s =>
    match drivePin l level s with
    | none => suspend (.drive l level :: rest) s
    | some (.ok, s') => run rest s'
    | some (.fail, s') => raise .pin s'
  | .build f :: rest, s => run rest (s.buildFrame f)
  | .write mode :: rest, s =>
    match busWrite mode s with
    | none => suspend (.write mode :: rest) s
    | some (.ok, s') => run rest s'
    | some (.fail, s') => cleanUp s'
  | .cleanUp :: _, s => cleanUp s

/-- Go on from the position kept in the state (R16). -/
def resume (s : State) : State := run s.todo s

/-! ### Commands -/

/-- `PH <- BUSY` for the operation `op` (R120). -/
def begin (op : Op) (s : State) : State := { s with ph := .busy, op := op }

/-- A command runs only when `PH = READY` (R120). Otherwise it is not taken, and nothing changes (R21, decision D19; log 14). -/
def whenReady (s : State) (body : State) : Host.Outcome State Fault Refusal :=
  if cmdReady s then .next body else .next s

/-- The rejection of an illegal command word (R62). -/
def reject (s : State) : State :=
  { s with
    res := .rejected
    trace := s.trace ++ [.ret .illegal .rejected] }

/-! ### Reset -/

/-- The state while `rst` is asserted (R25, R160): nothing of the block's state survives (R140). The parameter and the
caller's words are not the block's; the answers to an abandoned operation are "never looked at" (R160, log 3).
`FB` as in `State.reset` (log 4). -/
def hardReset (s : State) : State :=
  { State.reset with order := s.order, rst := s.rst, cmds := s.cmds }

end Sys2Proof.Machine
end

