-- ==== Sys2Proof/Machine/Cv.lean ====
section
/-! DEFINITION. The CV commands (42_cv.md): no cache, each sends one frame built from its operands alone (R100). -/

namespace Sys2Proof.Machine

/-- `CVRAW(c, ch, v)` (R101). Every `v` is accepted: "The block does not validate, clamp or reject" (R103). -/
def execCvraw (c : CvAddr) (ch : CvChan) (v : BitVec 16) (s : State) : Host.Outcome State Fault Refusal :=
  whenReady s (run (memWrite s.order (cvPattern c) (cvRawFrame ch v) .susp) (begin .cvraw s))

/-- `CVPOL(c, p)` (R102), the one command in non-suspending mode. -/
def execCvpol (c : CvAddr) (p : Byte) (s : State) : Host.Outcome State Fault Refusal :=
  whenReady s (run (memWrite s.order (cvPattern c) (cvPolFrame p) .block) (begin .cvpol s))

end Sys2Proof.Machine
end

