-- ==== Sys2Proof/Machine/Frames.lean ====
section
/-! DEFINITION. The wire-frame rows of spec/opcode_table.json (30_encoding.md R54 to R57).
A frame is "not a command": the caller cannot present it, the block emits it inside the operation that R55, R56 or R57
names. The meaning of a frame row is that emission, `BuildFrame` and `FramedTransfer`, followed by what is left of the
running operation. Outside such an operation no frame is emitted and nothing changes. DESIGN CHOICE, log 9. -/

namespace Sys2Proof.Machine

/-- "Emitted by `SETG`, `GHI`, `GLO` and, with `gg = 0x00`, four times by `INIT`" (R55). -/
def emitsGateFrame (g : Byte) : Op → Bool
  | .init => g == 0x00
  | .setg => true
  | .ghi => true
  | .glo => true
  | .cvraw => false
  | .cvpol => false
  | .illegal => false

/-- "Emitted by `CVRAW` only" (R57). -/
def emitsRawFrame : Op → Bool
  | .init => false
  | .setg => false
  | .ghi => false
  | .glo => false
  | .cvraw => true
  | .cvpol => false
  | .illegal => false

/-- "Emitted by `CVPOL` only" (R56). -/
def emitsPolFrame : Op → Bool
  | .init => false
  | .setg => false
  | .ghi => false
  | .glo => false
  | .cvraw => false
  | .cvpol => true
  | .illegal => false

/-- The mode an operation writes the bus in: `INIT` and `CVPOL` use `BLOCK`, the rest `SUSP` (R84, R90, R101, R102). -/
def modeOf : Op → Mode
  | .init => .block
  | .setg => .susp
  | .ghi => .susp
  | .glo => .susp
  | .cvraw => .susp
  | .cvpol => .block
  | .illegal => .susp

/-- Emit `f` inside the running operation if that operation emits frames of this format, and go on with the
operation's remaining steps. -/
def emission (emits : Bool) (f : Frame) (s : State) : Host.Outcome State Fault Refusal :=
  if running s && emits then .next (run (emitFrame f (modeOf s.op) ++ s.todo) s) else .next s

/-- Row `FRAME_GATE` (R55). -/
def execFrameGate (g : Byte) (s : State) : Host.Outcome State Fault Refusal :=
  emission (emitsGateFrame g s.op) (gateFrame g) s

/-- Row `FRAME_CVRAW` (R57). -/
def execFrameCvraw (ch : CvChan) (v : BitVec 16) (s : State) : Host.Outcome State Fault Refusal :=
  emission (emitsRawFrame s.op) (cvRawFrame ch v) s

/-- Row `FRAME_CVPOL` (R56). -/
def execFrameCvpol (p : Byte) (s : State) : Host.Outcome State Fault Refusal :=
  emission (emitsPolFrame s.op) (cvPolFrame p) s

end Sys2Proof.Machine
end

