-- ==== Sys2Proof/Machine/Gate.lean ====
section
/-! DEFINITION. The gate commands (41_gate.md): each changes one cached byte first (R94) and then sends that whole byte. -/

namespace Sys2Proof.Machine

/-- `GateWrite(a)` (R90): the frame is built from `G[a]` as the command has updated it. -/
def gateWrite (a : GateAddr) (s : State) : State :=
  run (memWrite s.order (gatePattern a) (gateFrame (s.gate a)) .susp) s

/-- `SETG(a, m)` (R91). -/
def execSetg (a : GateAddr) (m : Byte) (s : State) : Host.Outcome State Fault Refusal :=
  whenReady s (gateWrite a ((begin .setg s).setGate a m))

/-- `GHI(a, ch)` (R92). -/
def execGhi (a : GateAddr) (ch : GateChan) (s : State) : Host.Outcome State Fault Refusal :=
  whenReady s (gateWrite a ((begin .ghi s).setGate a (s.gate a ||| gateBit ch)))

/-- `GLO(a, ch)` (R93). -/
def execGlo (a : GateAddr) (ch : GateChan) (s : State) : Host.Outcome State Fault Refusal :=
  whenReady s (gateWrite a ((begin .glo s).setGate a (s.gate a &&& ~~~gateBit ch)))

end Sys2Proof.Machine
end

