-- ==== Sys2Proof/Machine/Dispatch.lean ====
section
/-! DEFINITION. One arm per constructor of Instr (43_address_and_framing.md R120 for the commands). -/

namespace Sys2Proof.Machine

def exec (i : Instr) (s : State) : Host.Outcome State Fault Refusal :=
  match i with
  | .setg a m => Sys2Proof.Machine.execSetg a m s
  | .ghi a ch => Sys2Proof.Machine.execGhi a ch s
  | .glo a ch => Sys2Proof.Machine.execGlo a ch s
  | .cvraw c ch v => Sys2Proof.Machine.execCvraw c ch v s
  | .cvpol c p => Sys2Proof.Machine.execCvpol c p s
  | .frameGate g => Sys2Proof.Machine.execFrameGate g s
  | .frameCvraw ch v => Sys2Proof.Machine.execFrameCvraw ch v s
  | .frameCvpol p => Sys2Proof.Machine.execFrameCvpol p s

end Sys2Proof.Machine
end

