-- ==== Sys2Proof/Machine/Init.lean ====
section
/-! DEFINITION. The construction sequence `INIT` (40_construction.md). -/

namespace Sys2Proof.Machine

/-- The sweep's order, "Gt0->Gt1->Gt2->Gt3" (R81). -/
def sweepOrder : List GateAddr := [.gt0, .gt1, .gt2, .gt3]

/-- One sweep entry: the all-zero gate frame to one gate address, non-suspending (R81, R84). -/
def sweepWrite (order : DriveOrder) (a : GateAddr) : List MicroOp :=
  memWrite order (gatePattern a) (gateFrame 0x00) .block

/-- The step list of `INIT` (R81): chip-select high, then the sweep. -/
def initSteps (order : DriveOrder) : List MicroOp :=
  .drive .cs true :: sweepOrder.flatMap (sweepWrite order)

/-- `INIT` begins (R80): `PH <- INIT`, and its steps run. -/
def startInit (s : State) : State := run (initSteps s.order) { s with ph := .init, op := .init }

end Sys2Proof.Machine
end

