-- ==== Sys2Proof/Machine/Ports.lean ====
section
/-! DEFINITION. The ports (10_state.md R21 to R24): what the outside can do, what the block does next, and the placing of
an instruction where the next step takes it. -/

namespace Sys2Proof.Machine

/-! ### Moves of the outside -/

/-- The caller presents one more command word (R21). -/
def present (w : Word) (s : State) : State := { s with cmds := s.cmds ++ [w] }

/-- The environment gives one more answer (R113). -/
def answer (r : Ans) (s : State) : State := { s with answers := s.answers ++ [r] }

/-- `rst` is asserted: from then on the state is that of R25, in whatever phase the block was (R160). -/
def assertReset (s : State) : State := { hardReset s with rst := true }

/-- `rst` is released (R160). -/
def releaseReset (s : State) : State := { s with rst := false }

/-! ### What the block does next -/

/-- The block's next move. -/
inductive Move where
  /-- `rst` is asserted: the reset state holds (R160). -/
  | holdReset
  /-- `rst` is released and `INIT` has not begun: it begins (R80, R160). -/
  | startInit
  /-- An operation is running: it goes on (R16). -/
  | resume
  /-- Nothing to do: idle without a command (R163), or faulted (R137). -/
  | rest
  /-- The command word `w` is taken and is `ILLEGAL` (R62). -/
  | reject (w : Word)
  /-- The command word is taken and spells `i` (R120). -/
  | run (i : Instr)
deriving DecidableEq, Repr

/-- What the block does in a state: by reset, then by phase (R16, R21, R120, R137, R160). -/
def nextMove (s : State) : Move :=
  if s.rst then .holdReset
  else match s.ph with
    | .unbuilt => .startInit
    | .init => .resume
    | .busy => .resume
    | .faulted => .rest
    | .ready =>
      match s.cmds with
      | [] => .rest
      | w :: _ =>
        match decodeCommand w with
        | none => .reject w
        | some i => .run i

/-- The command word is taken from the port: "sampled once at that event and never looked at again" (R21). -/
def takeCommand (s : State) : State := { s with cmds := s.cmds.tail }

/-! ### Placing an instruction (for `withFetchWord`) -/

/-- The operation a frame is placed in: one that emits it (R55, R56, R57). For a gate frame there are four, and `SETG`
is taken: DESIGN CHOICE, log 11. -/
def placedOp : Instr → Op
  | .setg _ _ => .setg
  | .ghi _ _ => .ghi
  | .glo _ _ => .glo
  | .cvraw _ _ _ => .cvraw
  | .cvpol _ _ => .cvpol
  | .frameGate _ => .setg
  | .frameCvraw _ _ => .cvraw
  | .frameCvpol _ => .cvpol

/-- The four bytes of a frame row; a command has none, and the word it is spelled by is read as bytes. -/
def placedFrame (i : Instr) : Frame := frameOfWord (encode i)

/-- Put `w` at the command port of an idle block. -/
def placeCommand (w : Word) (s : State) : State :=
  { s with rst := false, ph := .ready, flt := .none, todo := [], cmds := w :: s.cmds.tail }

/-- Put the sequencer where the frame of `i` is emitted next. -/
def placeFrame (i : Instr) (s : State) : State :=
  { s with
    rst := false
    ph := .busy
    flt := .none
    op := placedOp i
    todo := emitFrame (placedFrame i) (modeOf (placedOp i)) }

/-- Place what the 32-bit number `w` is read as (log 10, log 11): a command, or a word that is neither command nor frame,
at the command port; a frame at the sequencer's position. -/
def placeWord (w : Word) (s : State) : State :=
  match tableReading w with
  | none => placeCommand w s
  | some i => if i.isCommand then placeCommand w s else placeFrame i s

end Sys2Proof.Machine
end

