-- ==== Sys2Proof/Machine/Step.lean ====
section
/-! DEFINITION. One step of the machine: the block's next move, carried out. -/

namespace Sys2Proof.Machine

/-- One step. Where the block has nothing to do (reset asserted, idle without a command, waiting for an answer, faulted)
the step leaves the state as it is (R113, R137, R160, R163; log 13). -/
def step (s : State) : Host.Outcome State Fault Refusal :=
  match nextMove s with
  | .holdReset => .next (hardReset s)
  | .startInit => .next (startInit s)
  | .resume => .next (resume s)
  | .rest => .next s
  | .reject _ => .next (reject (takeCommand s))
  | .run i => exec i (takeCommand s)

/-- `s` with the instruction of the table word `w` placed where the next step takes it: log 11 says how a program comes
to run from reset without this. -/
def State.withFetchWord (s : State) (nbits w : Nat) : State := placeWord (BitVec.ofNat 32 (w % 2 ^ nbits)) s

end Sys2Proof.Machine
end

