-- ==== Sys2Proof/Safety.lean ====
section
/-! DEFINITION. What counts as a safe state, in the terms claims use: the phase invariant (10_state.md R16, R17), the trace
explaining the latches and the result (R13, R15, R18), and the wire discipline (43_address_and_framing.md R123,
30_encoding.md R54, R64). Nothing here is used by the machine. -/

namespace Sys2Proof.Machine

/-! ### Phases -/

/-- The phase, the fault register and the position agree: `FLT != NONE` exactly when `PH = FAULTED` (R17), no steps are
left outside `INIT` and `BUSY` (R16), and `INIT` runs `INIT` while `BUSY` runs a command (R16). -/
structure PhaseInv (s : State) : Prop where
  fault_iff : s.flt ≠ .none ↔ s.ph = .faulted
  no_steps : running s = false → s.todo = []
  init_op : s.ph = .init → s.op = .init
  busy_op : s.ph = .busy → s.op ≠ .init ∧ s.op ≠ .illegal

/-! ### What the trace says of the latches and of the result -/

/-- The level an event leaves in the latch of `l` (R13, R114). -/
def latchStep (l : Line) (v : Level) : Event → Level
  | .pin l' level r => if l' = l then latchAfter level r else v
  | .bus _ _ _ => v
  | .ret _ _ => v

/-- The latch of `l` as a trace tells it: "Before the first drive after reset a latch is `X`" (R13). -/
def latchOfTrace (l : Line) (t : List Event) : Level := t.foldl (latchStep l) .x

/-- The result an event leaves (R18). -/
def resultStep (v : Result) : Event → Result
  | .pin _ _ _ => v
  | .bus _ _ _ => v
  | .ret _ res => res

/-- The result as a trace tells it: "the result of the last finished operation", `OK` after reset (R18). -/
def resultOfTrace (t : List Event) : Result := t.foldl resultStep .ok

/-- The trace explains the four latches and `RES`. -/
structure TraceInv (s : State) : Prop where
  latches : ∀ l, s.latch l = latchOfTrace l s.trace
  result : s.res = resultOfTrace s.trace

/-! ### The wire discipline -/

/-- Which address lines have been driven since chip-select was last high. -/
structure Driven where
  d0 : Bool
  d1 : Bool
  d2 : Bool
deriving DecidableEq, Repr

/-- No line driven yet. -/
def Driven.none : Driven := ⟨false, false, false⟩

/-- All three lines driven. -/
def Driven.all : Driven := ⟨true, true, true⟩

/-- Where the wires stand. -/
inductive Wire where
  /-- Nothing driven since reset. -/
  | start
  /-- Chip-select high; the lines driven since. -/
  | idle (d : Driven)
  /-- Chip-select low, no bus write yet. -/
  | selected
  /-- Chip-select low, the bus write answered `ok`. -/
  | written
  /-- Chip-select low, the bus write answered `fail`. -/
  | failed
  /-- After a failure: only the `RET` event is left. -/
  | dead
deriving DecidableEq, Repr

/-- After a drive: `w` when it was answered `ok`, the failed block otherwise. -/
def Wire.after (w : Wire) : Ans → Wire
  | .ok => w
  | .fail => .dead

/-- Drive an address line that has not been driven since chip-select was last high. -/
def Driven.drive (d : Driven) : Line → Option Driven
  | .a0 => if d.d0 then Option.none else some { d with d0 := true }
  | .a1 => if d.d1 then Option.none else some { d with d1 := true }
  | .a2 => if d.d2 then Option.none else some { d with d2 := true }
  | .cs => Option.none

/-- The events the discipline of R123 admits at each point: address lines are driven only while chip-select is high, once
each; chip-select goes low only after all three; then exactly one bus write; then chip-select high. -/
def wireStep : Wire → Event → Option Wire
  | .start, .pin .cs true r => some (Wire.after (.idle .none) r)
  | .idle d, .pin .cs false r => if d = .all then some (Wire.after .selected r) else none
  | .idle d, .pin .a0 _ r => (d.drive .a0).map fun d' => Wire.after (.idle d') r
  | .idle d, .pin .a1 _ r => (d.drive .a1).map fun d' => Wire.after (.idle d') r
  | .idle d, .pin .a2 _ r => (d.drive .a2).map fun d' => Wire.after (.idle d') r
  | .idle d, .ret _ _ => if d = .none then some (.idle .none) else none
  | .selected, .bus _ _ .ok => some .written
  | .selected, .bus _ _ .fail => some .failed
  | .written, .pin .cs true r => some (Wire.after (.idle .none) r)
  | .failed, .pin .cs true _ => some .dead
  | .dead, .ret _ _ => some .dead
  | _, _ => none

/-- The wires after a trace, if the trace keeps the discipline. -/
def wireOfTrace (t : List Event) : Option Wire := t.foldlM wireStep .start

/-- Frame and mode that an operation may put on the bus: its format (R55 to R57) and its mode (R84, R90, R101, R102). -/
def legalWrite (op : Op) (f : Frame) (mode : Mode) : Bool :=
  mode == modeOf op &&
    match op with
    | .init => f == gateFrame 0x00
    | .setg => f == gateFrame f.b2
    | .ghi => f == gateFrame f.b2
    | .glo => f == gateFrame f.b2
    | .cvraw => f.b0 &&& 0x80 == 0x00 && f.b2 &&& 0x0F == 0x00 && f.b3 == 0x00
    | .cvpol => f == cvPolFrame f.b2
    | .illegal => false

/-- Steps that may follow while chip-select is high and the lines of `d` have been driven. -/
def idleSteps (op : Op) : Driven → List MicroOp → Bool
  | d, [] => d == .none
  | d, .drive l _ :: rest =>
    match d.drive l with
    | none => false
    | some d' => idleSteps op d' rest
  | d, .build f :: .drive .cs false :: .write mode :: .drive .cs true :: rest =>
    d == .all && legalWrite op f mode && idleSteps op .none rest
  | _, _ => false

/-- The steps left fit where the wires stand; `fb` is the frame register. -/
def positioned (op : Op) (fb : Frame) : Wire → List MicroOp → Bool
  | .start, .drive .cs true :: rest => idleSteps op .none rest
  | .idle d, .drive .cs false :: .write mode :: .drive .cs true :: rest =>
    d == .all && legalWrite op fb mode && idleSteps op .none rest
  | .idle d, steps => idleSteps op d steps
  | .selected, .write mode :: .drive .cs true :: rest => legalWrite op fb mode && idleSteps op .none rest
  | .written, .drive .cs true :: rest => idleSteps op .none rest
  | .failed, [.cleanUp] => true
  | _, _ => false

/-- Where the wires stand agrees with the phase and the position. -/
def wireFits (w : Wire) (s : State) : Bool :=
  match s.ph with
  | .unbuilt => w == .start
  | .init => positioned s.op s.fb w s.todo
  | .busy => positioned s.op s.fb w s.todo
  | .ready => w == .idle .none
  | .faulted => w == .dead

/-- The trace keeps the wire discipline, every bus write in it is one that some operation may make, and the position of
the block continues it. -/
structure WireInv (s : State) : Prop where
  disciplined : ∃ w, wireOfTrace s.trace = some w ∧ wireFits w s = true
  legal : ∀ f mode r, Event.bus f mode r ∈ s.trace → ∃ op, legalWrite op f mode = true

/-! ### What a clean or a failed operation leaves, as the spec's tables give it

These are the tables of R121, R122 and R82 written down by themselves; the machine does not use them. -/

/-- The three address events of a pattern, all answered `ok`, in ADDR_DRIVE_ORDER (R116). -/
def addrEvents (order : DriveOrder) (p : Pattern) : List Event := (driveLines order).map fun l => .pin l (p.at l) .ok

/-- The events of a framed transfer without failure (R118). -/
def transferEvents (f : Frame) (mode : Mode) : List Event := [.pin .cs false .ok, .bus f mode .ok, .pin .cs true .ok]

/-- A row of the table of R121, with the cache after the command. -/
structure CommandRow where
  op : Op
  pattern : Pattern
  frame : Frame
  mode : Mode
  g : GateCache
deriving DecidableEq, Repr

/-- The table of R121; a frame has no row. -/
def commandRow (i : Instr) (s : State) : Option CommandRow :=
  match i with
  | .setg a m => some ⟨.setg, gatePattern a, ⟨0x04, 0x00, m, 0x00⟩, .susp, (s.setGate a m).g⟩
  | .ghi a ch =>
    some ⟨.ghi, gatePattern a, ⟨0x04, 0x00, s.gate a ||| gateBit ch, 0x00⟩, .susp, (s.setGate a (s.gate a ||| gateBit ch)).g⟩
  | .glo a ch =>
    some ⟨.glo, gatePattern a, ⟨0x04, 0x00, s.gate a &&& ~~~gateBit ch, 0x00⟩, .susp,
      (s.setGate a (s.gate a &&& ~~~gateBit ch)).g⟩
  | .cvraw c ch v => some ⟨.cvraw, cvPattern c, cvRawFrame ch v, .susp, s.g⟩
  | .cvpol c p => some ⟨.cvpol, cvPattern c, ⟨0x14, 0x00, p, 0x00⟩, .block, s.g⟩
  | .frameGate _ => none
  | .frameCvraw _ _ => none
  | .frameCvpol _ => none

/-- The state after a command that met six `ok` answers, `rest` being the answers behind them (R121, R120, R173). -/
def returned (r : CommandRow) (rest : List Ans) (s : State) : State :=
  { s with
    g := r.g
    cs := .high
    a0 := levelOf r.pattern.l0
    a1 := levelOf r.pattern.l1
    a2 := levelOf r.pattern.l2
    fb := r.frame
    ph := .ready
    res := .ok
    trace := s.trace ++ addrEvents s.order r.pattern ++ transferEvents r.frame r.mode ++ [.ret r.op .ok]
    op := r.op
    todo := []
    answers := rest }

/-- What every row of the table of R122 has in common: cause `x`, the events `es` before the `RET`. -/
def failed (r : CommandRow) (x : Cause) (es : List Event) (rest : List Ans) (s : State) : State :=
  { s with
    g := r.g
    ph := .faulted
    flt := faultOf x
    res := fatalOf x
    trace := s.trace ++ es ++ [.ret r.op (fatalOf x)]
    op := r.op
    todo := []
    answers := rest }

/-- The 25 pin and bus events of a clean `INIT` (R82, for any ADDR_DRIVE_ORDER). -/
def initEvents (order : DriveOrder) : List Event :=
  .pin .cs true .ok :: [GateAddr.gt0, .gt1, .gt2, .gt3].flatMap fun a =>
    addrEvents order (gatePattern a) ++ transferEvents ⟨0x04, 0x00, 0x00, 0x00⟩ .block

/-- The same event answered `fail`. -/
def failing : Event → Event
  | .pin l v _ => .pin l v .fail
  | .bus f mode _ => .bus f mode .fail
  | .ret op res => .ret op res

/-- Two states that differ at most in the four latches. -/
def SameButLatches (s t : State) : Prop := t = { s with cs := t.cs, a0 := t.a0, a1 := t.a1, a2 := t.a2 }

/-- The invariant of the block. -/
structure Inv (s : State) : Prop where
  phase : PhaseInv s
  trace : TraceInv s
  wire : WireInv s

end Sys2Proof.Machine
end

