-- ==== Sys2Proof/Certificates/Slice0/Obligations.lean ====
section
/-! DEFINITION. The statements for the provers. Each docstring names the rule of spec/ it formalises. Where a rule carries
the mark "[decision: see ...]" or "[derived: ...]" the statement says so: it rests on the spec's own choice or inference. -/

open Sys2Proof Sys2Proof.Machine Host

/-! ### Encodings -/

/-- 30_encoding.md R53, "`Decode(Encode(cmd)) = cmd` for every command" (an inference the spec marks [derived: from rule R52];
the word layout is its decision D3). Every command, every operand value. -/
def Obligations.DecodeOfEncodeIsTheCommand : Prop :=
  ∀ i : Instr, i.isCommand = true → decodeCommand (encode i) = some i

/-- R53, "`Encode(Decode(w)) = w` for every `w` with `Decode(w) != ILLEGAL`" (marked [derived: from rule R52]), and what is
decoded is a command. -/
def Obligations.EncodeOfDecodeIsTheWord : Prop :=
  ∀ (w : Word) (i : Instr), decodeCommand w = some i → i.isCommand = true ∧ encode i = w

/-- R52, "A word `w` spells the command of a row exactly when `(w & mask) = match` and the extra condition holds", row by row
(the layout is decision D3, the checked fields D26). -/
def Obligations.WordSpellsACommandExactlyWhenItsRowMatches : Prop :=
  ∀ w : Word,
    ((∃ a m, decodeCommand w = some (.setg a m)) ↔ w &&& 0xF9FFFF00 = 0x10000000) ∧
    ((∃ a ch, decodeCommand w = some (.ghi a ch)) ↔ w &&& 0xF83FFFFF = 0x20000000) ∧
    ((∃ a ch, decodeCommand w = some (.glo a ch)) ↔ w &&& 0xF83FFFFF = 0x30000000) ∧
    ((∃ c ch v, decodeCommand w = some (.cvraw c ch v)) ↔ w &&& 0xF03F0000 = 0x40000000 ∧ w.extractLsb' 25 3 ≠ 0) ∧
    ((∃ c p, decodeCommand w = some (.cvpol c p)) ↔ w &&& 0xF1FFFF00 = 0x50000000 ∧ w.extractLsb' 25 3 ≠ 0)

/-- Words that 95_test_vectors.md writes out (V4, V5, V6, G3, H5, and a GLO of section 2.2; X4, X5 and X7 to X9 illegal), and the three
frames of V4, V6 and G1 as numbers. -/
def Obligations.WordsWrittenOutDecodeAsTheSpecSays : Prop :=
  decodeCommand 0x140000A5 = some (.setg .gt2 0xA5) ∧
  decodeCommand 0x24800000 = some (.ghi .gt2 .channel3) ∧
  decodeCommand 0x37C00000 = some (.glo .gt3 .channel8) ∧
  decodeCommand 0x42000ABC = some (.cvraw .cv1 .channel1 0x0ABC) ∧
  decodeCommand 0x45C01000 = some (.cvraw .cv2 .channel8 0x1000) ∧
  decodeCommand 0x5800005A = some (.cvpol .cv4 0x5A) ∧
  decodeCommand 0x28000000 = none ∧
  decodeCommand 0x40000100 = none ∧
  decodeCommand 0x10010000 = none ∧
  decodeCommand 0x10400000 = none ∧
  decodeCommand 0x10000100 = none ∧
  decodeFrame 0x00ABC000 = some (.frameCvraw .channel1 0x0ABC) ∧
  decodeFrame 0x14005A00 = some (.frameCvpol 0x5A) ∧
  decodeFrame 0x0400A500 = some (.frameGate 0xA5)

/-- R66, "A number outside its range, or a name outside its list, spells no command": a line spells a command exactly when it
is well formed, and two different well-formed lines spell different commands (the syntax is decision D21). -/
def Obligations.LineSpellsACommandExactlyWhenInRange : Prop :=
  (∀ l : CommandLine, l.wellFormed = true ↔ ∃ i, l.instr = some i ∧ i.isCommand = true) ∧
  (∀ l : CommandLine, l.wellFormed = false → l.instr = none) ∧
  (∀ (l k : CommandLine) (i : Instr), l.instr = some i → k.instr = some i → l = k)

/-- R60 and R104 (both marked [derived]): the number of a frame has that frame among its readings, and every reading of a
number is a frame with that number. -/
def Obligations.FrameIsAmongTheReadingsOfItsNumber : Prop :=
  (∀ i : Instr, i.isCommand = false → i ∈ frameReadings (encode i)) ∧
  (∀ (w : Word) (i : Instr), i ∈ frameReadings w → i.isCommand = false ∧ encode i = w)

/-- R60, "For in-range CV values (`v <= 0x0FFF`) ... the three formats are disjoint" (marked [derived]). -/
def Obligations.FramesOfInRangeValuesAreDisjoint : Prop :=
  ∀ (g p : Byte) (ch : CvChan) (v : BitVec 16), v ≤ 0x0FFF →
    gateFrame g ≠ cvPolFrame p ∧ cvRawFrame ch v ≠ gateFrame g ∧ cvRawFrame ch v ≠ cvPolFrame p

/-- R60 and R170 (marked [derived]): an out-of-range value forges a gate frame or a polarity frame, on shared address lines. -/
def Obligations.OutOfRangeValueForgesAFrame : Prop :=
  ∀ k : BitVec 4,
    cvRawFrame .channel1 (0x400#12 ++ k) = gateFrame (k ++ 0#4) ∧
    cvRawFrame .channel8 (0x400#12 ++ k) = cvPolFrame (k ++ 0#4) ∧
    cvPattern .cv1 = gatePattern .gt1 ∧ cvPattern .cv2 = gatePattern .gt2 ∧ cvPattern .cv3 = gatePattern .gt3

/-- R104, "The map from `(ch, v)` to the CV raw frame is injective over all 8 x 65536 operand pairs" (marked [derived]). -/
def Obligations.CvRawFrameDeterminesChannelAndValue : Prop :=
  ∀ (ch ch' : CvChan) (v v' : BitVec 16), cvRawFrame ch v = cvRawFrame ch' v' → ch = ch' ∧ v = v'

/-- R57, the source's formula "byte0 = channelCode | ((value & 0xF000) >> 12); byte1 = (value & 0x0FF0) >> 4;
byte2 = (value & 0x000F) << 4; byte3 = 0x00" against the slices the model uses, with no constant in byte 0 (decision D6, log 7);
for an in-range value byte 0 is the code alone. -/
def Obligations.CvRawFrameIsTheMaskAndShiftFormula : Prop :=
  ∀ (ch : CvChan) (v : BitVec 16),
    cvRawFrame ch v = ⟨cvCode ch ||| ((v &&& 0xF000) >>> 12).setWidth 8, ((v &&& 0x0FF0) >>> 4).setWidth 8,
      ((v &&& 0x000F) <<< 4).setWidth 8, 0x00⟩ ∧
    (v ≤ 0x0FFF → (cvRawFrame ch v).b0 = cvCode ch)

/-- R58, the code table, its values "already in place in the top nibble" and "ORed in unshifted", next to the top nibble of the value
and the constant of byte 0 (that constant is R57's). -/
def Obligations.ChannelCodesAreTheTable : Prop :=
  (cvCode .channel1 = 0x00 ∧ cvCode .channel8 = 0x10 ∧ cvCode .channel2 = 0x20 ∧ cvCode .channel7 = 0x30 ∧
    cvCode .channel3 = 0x40 ∧ cvCode .channel6 = 0x50 ∧ cvCode .channel4 = 0x60 ∧ cvCode .channel5 = 0x70) ∧
  ∀ (ch : CvChan) (v : BitVec 16), (cvRawFrame ch v).b0 = cvRawBase ||| cvCode ch ||| (v.extractLsb' 12 4).setWidth 8

/-! ### Operands -/

/-- R31 and R32, the two address tables, whole; ordinal 0 names no CV address. -/
def Obligations.AddressTablesAreTheContract : Prop :=
  (gatePattern .gt0 = ⟨false, false, false⟩ ∧ gatePattern .gt1 = ⟨true, false, false⟩ ∧
    gatePattern .gt2 = ⟨false, true, false⟩ ∧ gatePattern .gt3 = ⟨true, true, false⟩) ∧
  (cvPattern .cv1 = ⟨true, false, false⟩ ∧ cvPattern .cv2 = ⟨false, true, false⟩ ∧ cvPattern .cv3 = ⟨true, true, false⟩ ∧
    cvPattern .cv4 = ⟨false, false, true⟩ ∧ cvPattern .cv5 = ⟨true, false, true⟩ ∧ cvPattern .cv6 = ⟨false, true, true⟩ ∧
    cvPattern .cv7 = ⟨true, true, true⟩ ∧ cvAddrOf 0 = none)

/-- R92, "set bit `channel` (0-7) of the cached byte for `addr`, leaving other bits unchanged", and R93, "clear bit `channel`
... leaving other bits unchanged", bit by bit and whatever the answers are. Which bit a channel is: `N - 1`, decision D20 (log 8). -/
def Obligations.GhiAndGloChangeOneBit : Prop :=
  ∀ (a : GateAddr) (ch : GateChan) (s t : State) (j : Nat), s.ph = .ready → j < 8 →
    (exec (.ghi a ch) s = .next t →
      (t.gate a).getLsbD j = (decide (j = (gateChanIndex ch).toNat) || (s.gate a).getLsbD j)) ∧
    (exec (.glo a ch) s = .next t →
      (t.gate a).getLsbD j = (!decide (j = (gateChanIndex ch).toNat) && (s.gate a).getLsbD j))

/-! ### Primitives -/

/-- R114, `DrivePin`: the answer is taken, the latch set, the event recorded, the answer returned, nothing else; without an
answer nothing happens (the level X after `fail` is decision D9). -/
def Obligations.DrivePinSetsItsLatchAndRecords : Prop :=
  ∀ (l : Line) (v : Bool) (s : State),
    (s.answers = [] → drivePin l v s = none) ∧
    (∀ rest, s.answers = .ok :: rest →
      drivePin l v s = some (.ok, (((s.setAnswers rest).setLatch l (levelOf v)).record (.pin l v .ok)))) ∧
    (∀ rest, s.answers = .fail :: rest →
      drivePin l v s = some (.fail, (((s.setAnswers rest).setLatch l .x).record (.pin l v .fail))))

/-- R115, `BusWrite`: `FB` goes out, the answer is recorded and returned, no register is written; the mode changes nothing but
its tag on the event (decision D17). -/
def Obligations.BusWriteRecordsTheFrameAndNothingElse : Prop :=
  ∀ (mode : Mode) (s : State),
    (s.answers = [] → busWrite mode s = none) ∧
    (∀ r rest, s.answers = r :: rest →
      busWrite mode s = some (r, { s with answers := rest, trace := s.trace ++ [.bus s.fb mode r] }))

/-- R117, `BuildFrame(b0, b1, b2, b3)`: the four bytes of `FB` at once, nothing else, no event, no failure; and a step list without a
`BuildFrame` leaves `FB` as it is, whatever the answers are. -/
def Obligations.BuildFrameWritesOnlyTheFrameRegister : Prop :=
  ∀ (b0 b1 b2 b3 : Byte) (ops : List MicroOp) (s : State),
    s.buildFrame ⟨b0, b1, b2, b3⟩ = { s with fb := ⟨b0, b1, b2, b3⟩ } ∧
    run (.build ⟨b0, b1, b2, b3⟩ :: ops) s = run ops { s with fb := ⟨b0, b1, b2, b3⟩ } ∧
    ((∀ f, MicroOp.build f ∉ ops) → (run ops s).fb = s.fb)

/-- R116 and R110, `AssertAddr` without failure, for each of the six ADDR_DRIVE_ORDERs (decision D8, log 6): three drives in
that order whatever the latches hold, the end state the same for all orders, chip-select and everything else untouched. -/
def Obligations.AssertAddrDrivesAllThreeLines : Prop :=
  ∀ (order : DriveOrder) (p : Pattern) (ops : List MicroOp) (s : State) (rest : List Ans),
    s.answers = .ok :: .ok :: .ok :: rest →
    run (assertAddr order p ++ ops) s =
      run ops { s with
        a0 := levelOf p.l0, a1 := levelOf p.l1, a2 := levelOf p.l2
        trace := s.trace ++ addrEvents order p
        answers := rest }

/-- R116, "the first `fail` answer raises `PinFailure` at once and the lines later in the order are not driven", for each of
the six orders and each of the three places (decisions D8, D9). `ls` are the lines before the failing one. -/
def Obligations.AssertAddrStopsAtTheFirstFailure : Prop :=
  ∀ (order : DriveOrder) (p : Pattern) (ops : List MicroOp) (s : State) (rest : List Ans)
    (ls : List Line) (l : Line) (ls' : List Line),
    driveLines order = ls ++ l :: ls' → s.flt = .none → s.answers = ls.map (fun _ => Ans.ok) ++ .fail :: rest →
    let t := run (assertAddr order p ++ ops) s
    t.ph = .faulted ∧ t.flt = .pin ∧ t.res = .fatalPin ∧ t.todo = [] ∧ t.answers = rest ∧
    t.trace = s.trace ++ (ls.map fun k => Event.pin k (p.at k) .ok) ++ [.pin l (p.at l) .fail, .ret s.op .fatalPin] ∧
    (∀ k ∈ ls, t.latch k = levelOf (p.at k)) ∧ t.latch l = .x ∧ (∀ k ∈ ls', t.latch k = s.latch k) ∧
    t.cs = s.cs ∧ t.fb = s.fb ∧ t.g = s.g

/-- R118, `FramedTransfer` on its four paths: clean; (a) chip-select low fails; (b) the bus write fails, with the clean-up
drive answered either way; (c) chip-select high fails. (a) is decision D10, (b) decision D11. -/
def Obligations.FramedTransferTakesOneOfFourPaths : Prop :=
  ∀ (mode : Mode) (ops : List MicroOp) (s : State) (rest : List Ans), s.flt = .none →
    (s.answers = .ok :: .ok :: .ok :: rest →
      run (framedTransfer mode ++ ops) s =
        run ops { s with cs := .high, trace := s.trace ++ transferEvents s.fb mode, answers := rest }) ∧
    (s.answers = .fail :: rest →
      run (framedTransfer mode ++ ops) s =
        raise .pin { s with cs := .x, trace := s.trace ++ [.pin .cs false .fail], answers := rest }) ∧
    (∀ q, s.answers = .ok :: .fail :: q :: rest →
      run (framedTransfer mode ++ ops) s =
        raise .bus { s with
          cs := latchAfter true q
          trace := s.trace ++ [.pin .cs false .ok, .bus s.fb mode .fail, .pin .cs true q]
          answers := rest }) ∧
    (s.answers = .ok :: .ok :: .fail :: rest →
      run (framedTransfer mode ++ ops) s =
        raise .pin { s with
          cs := .x
          trace := s.trace ++ [.pin .cs false .ok, .bus s.fb mode .ok, .pin .cs true .fail]
          answers := rest })

/-- R134 and R135, `raise`: the remaining steps skipped, `FLT` if it was `NONE`, `RES`, the `RET` event, `PH`; `G`, the latches,
`FB` and everything else as they were. -/
def Obligations.RaiseEntersTheFault : Prop :=
  ∀ s : State,
    (s.flt = .none → raise .pin s =
      { s with flt := .pin, res := .fatalPin, trace := s.trace ++ [.ret s.op .fatalPin], ph := .faulted, todo := [] }) ∧
    (s.flt = .none → raise .bus s =
      { s with flt := .bus, res := .fatalBus, trace := s.trace ++ [.ret s.op .fatalBus], ph := .faulted, todo := [] }) ∧
    (∀ x, s.flt ≠ .none → raise x s =
      { s with res := fatalOf x, trace := s.trace ++ [.ret s.op (fatalOf x)], ph := .faulted, todo := [] })

/-! ### Commands that complete -/

/-- R91 with R121: `SETG a, m` in `READY` with six `ok` answers returns `OK`, with `G[a] = m`, the three address drives of
`GatePattern(a)`, and the frame `[0x04, 0x00, m, 0x00]` sent in mode `SUSP`; for every ADDR_DRIVE_ORDER. -/
def Obligations.SetgReplacesTheMaskAndSendsIt : Prop :=
  ∀ (a : GateAddr) (m : Byte) (s : State) (rest : List Ans), s.ph = .ready →
    s.answers = .ok :: .ok :: .ok :: .ok :: .ok :: .ok :: rest →
    exec (.setg a m) s =
      .next (returned ⟨.setg, gatePattern a, ⟨0x04, 0x00, m, 0x00⟩, .susp, (s.setGate a m).g⟩ rest s)

/-- R92 with R121: `GHI a, ch`, as for `SETG` with the mask `G[a] | Bit(ch)`. -/
def Obligations.GhiSetsTheBitAndSendsTheMask : Prop :=
  ∀ (a : GateAddr) (ch : GateChan) (s : State) (rest : List Ans), s.ph = .ready →
    s.answers = .ok :: .ok :: .ok :: .ok :: .ok :: .ok :: rest →
    exec (.ghi a ch) s =
      .next (returned ⟨.ghi, gatePattern a, ⟨0x04, 0x00, s.gate a ||| gateBit ch, 0x00⟩, .susp,
        (s.setGate a (s.gate a ||| gateBit ch)).g⟩ rest s)

/-- R93 with R121: `GLO a, ch`, as for `SETG` with the mask `G[a] & ~Bit(ch)`. -/
def Obligations.GloClearsTheBitAndSendsTheMask : Prop :=
  ∀ (a : GateAddr) (ch : GateChan) (s : State) (rest : List Ans), s.ph = .ready →
    s.answers = .ok :: .ok :: .ok :: .ok :: .ok :: .ok :: rest →
    exec (.glo a ch) s =
      .next (returned ⟨.glo, gatePattern a, ⟨0x04, 0x00, s.gate a &&& ~~~gateBit ch, 0x00⟩, .susp,
        (s.setGate a (s.gate a &&& ~~~gateBit ch)).g⟩ rest s)

/-- R101 with R121 and R103: `CVRAW c, ch, v`, every 16-bit `v`; no cached byte changes. -/
def Obligations.CvrawSendsTheRawFrame : Prop :=
  ∀ (c : CvAddr) (ch : CvChan) (v : BitVec 16) (s : State) (rest : List Ans), s.ph = .ready →
    s.answers = .ok :: .ok :: .ok :: .ok :: .ok :: .ok :: rest →
    exec (.cvraw c ch v) s =
      .next (returned ⟨.cvraw, cvPattern c,
        ⟨cvCode ch ||| (v.extractLsb' 12 4).setWidth 8, v.extractLsb' 4 8, v.extractLsb' 0 4 ++ 0#4, 0x00⟩, .susp, s.g⟩ rest s)

/-- R102 with R121 and R105: `CVPOL c, p`, every byte `p` unchanged, in mode `BLOCK`; no cached byte changes. -/
def Obligations.CvpolSendsThePolarityFrame : Prop :=
  ∀ (c : CvAddr) (p : Byte) (s : State) (rest : List Ans), s.ph = .ready →
    s.answers = .ok :: .ok :: .ok :: .ok :: .ok :: .ok :: rest →
    exec (.cvpol c p) s = .next (returned ⟨.cvpol, cvPattern c, ⟨0x14, 0x00, p, 0x00⟩, .block, s.g⟩ rest s)

/-- R55 with R117, R118 and R120, read as the meaning of row FRAME_GATE (the model's choice, log 9): inside `SETG`, `GHI` or
`GLO` with nothing left to do but the frame, three `ok` answers, the gate frame goes out in mode `SUSP` and the command
returns; inside `INIT` the all-zero frame goes out in mode `BLOCK` and `INIT` goes on with its remaining steps. -/
def Obligations.GateFrameIsEmittedInsideItsOperation : Prop :=
  (∀ (g : Byte) (s : State) (rest : List Ans), s.ph = .busy → s.op ∈ [Op.setg, .ghi, .glo] → s.todo = [] →
    s.answers = .ok :: .ok :: .ok :: rest →
    exec (.frameGate g) s =
      .next { s with
        cs := .high, fb := ⟨0x04, 0x00, g, 0x00⟩, ph := .ready, res := .ok
        trace := s.trace ++ transferEvents ⟨0x04, 0x00, g, 0x00⟩ .susp ++ [.ret s.op .ok]
        answers := rest }) ∧
  (∀ (s : State) (rest : List Ans), s.ph = .init → s.op = .init → s.answers = .ok :: .ok :: .ok :: rest →
    exec (.frameGate 0x00) s =
      .next (run s.todo { s with
        cs := .high, fb := ⟨0x04, 0x00, 0x00, 0x00⟩
        trace := s.trace ++ transferEvents ⟨0x04, 0x00, 0x00, 0x00⟩ .block
        answers := rest }))

/-- R57 with R117, R118 and R120, read as the meaning of row FRAME_CVRAW (the model's choice, log 9). -/
def Obligations.RawFrameIsEmittedInsideCvraw : Prop :=
  ∀ (ch : CvChan) (v : BitVec 16) (s : State) (rest : List Ans), s.ph = .busy → s.op = .cvraw → s.todo = [] →
    s.answers = .ok :: .ok :: .ok :: rest →
    exec (.frameCvraw ch v) s =
      .next { s with
        cs := .high, fb := cvRawFrame ch v, ph := .ready, res := .ok
        trace := s.trace ++ transferEvents (cvRawFrame ch v) .susp ++ [.ret .cvraw .ok]
        answers := rest }

/-- R56 with R117, R118 and R120, read as the meaning of row FRAME_CVPOL (the model's choice, log 9). -/
def Obligations.PolarityFrameIsEmittedInsideCvpol : Prop :=
  ∀ (p : Byte) (s : State) (rest : List Ans), s.ph = .busy → s.op = .cvpol → s.todo = [] →
    s.answers = .ok :: .ok :: .ok :: rest →
    exec (.frameCvpol p) s =
      .next { s with
        cs := .high, fb := ⟨0x14, 0x00, p, 0x00⟩, ph := .ready, res := .ok
        trace := s.trace ++ transferEvents ⟨0x14, 0x00, p, 0x00⟩ .block ++ [.ret .cvpol .ok]
        answers := rest }

/-- R112 and R119: a command is its address assertion followed by the emission of its frame. With three `ok` answers for the
address lines, and whatever answers follow them, `exec` of the command is `exec` of its frame row in the state the address
assertion leaves, and that state is `BUSY` with the command running. -/
def Obligations.CommandEndsInItsFrame : Prop :=
  ∀ (i : Instr) (r : CommandRow) (s : State) (rest : List Ans), commandRow i s = some r → s.ph = .ready → s.todo = [] →
    s.answers = .ok :: .ok :: .ok :: rest →
    ∃ frame : Instr, frame.isCommand = false ∧ frameOfWord (encode frame) = r.frame ∧
      exec i s = exec frame { s with
        g := r.g, a0 := levelOf r.pattern.l0, a1 := levelOf r.pattern.l1, a2 := levelOf r.pattern.l2
        ph := .busy, op := r.op, trace := s.trace ++ addrEvents s.order r.pattern, answers := rest }

/-- "Emitted by `CVRAW` only" (R57), "Emitted by `CVPOL` only" (R56), and R55's list: outside such an operation a frame row
changes nothing (the model's choice of what that is, log 9). -/
def Obligations.NoFrameOutsideItsOperation : Prop :=
  ∀ s : State,
    (∀ g, running s = false ∨ s.op ∈ [Op.cvraw, .cvpol, .illegal] → exec (.frameGate g) s = .next s) ∧
    (∀ g, s.op = .init → g ≠ 0x00 → exec (.frameGate g) s = .next s) ∧
    (∀ ch v, running s = false ∨ s.op ≠ .cvraw → exec (.frameCvraw ch v) s = .next s) ∧
    (∀ p, running s = false ∨ s.op ≠ .cvpol → exec (.frameCvpol p) s = .next s)

/-! ### Commands that fail or wait -/

/-- The table of R122 (marked [derived]; default drive order, decision D8; X is D9; rows 4 and 5 are D10 and D11): every
command, every failing step, the whole end state. -/
def Obligations.CommandFailsAsTheTableSays : Prop :=
  ∀ (i : Instr) (r : CommandRow) (s : State) (rest : List Ans), commandRow i s = some r → s.ph = .ready → s.flt = .none →
    s.order = .a012 →
    (s.answers = .fail :: rest →
      exec i s = .next { failed r .pin [.pin .a0 r.pattern.l0 .fail] rest s with a0 := .x }) ∧
    (s.answers = .ok :: .fail :: rest →
      exec i s = .next { failed r .pin [.pin .a0 r.pattern.l0 .ok, .pin .a1 r.pattern.l1 .fail] rest s with
        a0 := levelOf r.pattern.l0, a1 := .x }) ∧
    (s.answers = .ok :: .ok :: .fail :: rest →
      exec i s = .next { failed r .pin
          [.pin .a0 r.pattern.l0 .ok, .pin .a1 r.pattern.l1 .ok, .pin .a2 r.pattern.l2 .fail] rest s with
        a0 := levelOf r.pattern.l0, a1 := levelOf r.pattern.l1, a2 := .x }) ∧
    (s.answers = .ok :: .ok :: .ok :: .fail :: rest →
      exec i s = .next { failed r .pin (addrEvents .a012 r.pattern ++ [.pin .cs false .fail]) rest s with
        a0 := levelOf r.pattern.l0, a1 := levelOf r.pattern.l1, a2 := levelOf r.pattern.l2, cs := .x, fb := r.frame }) ∧
    (∀ q, s.answers = .ok :: .ok :: .ok :: .ok :: .fail :: q :: rest →
      exec i s = .next { failed r .bus
          (addrEvents .a012 r.pattern ++ [.pin .cs false .ok, .bus r.frame r.mode .fail, .pin .cs true q]) rest s with
        a0 := levelOf r.pattern.l0, a1 := levelOf r.pattern.l1, a2 := levelOf r.pattern.l2
        cs := latchAfter true q, fb := r.frame }) ∧
    (s.answers = .ok :: .ok :: .ok :: .ok :: .ok :: .fail :: rest →
      exec i s = .next { failed r .pin
          (addrEvents .a012 r.pattern ++ [.pin .cs false .ok, .bus r.frame r.mode .ok, .pin .cs true .fail]) rest s with
        a0 := levelOf r.pattern.l0, a1 := levelOf r.pattern.l1, a2 := levelOf r.pattern.l2, cs := .x, fb := r.frame })

/-- R113 (decision D18): with only `k` answers, all `ok` and fewer than six, a command stays in `BUSY` in the step that asked,
with chip-select low if that step is the bus write; the cache is already written; and a further step without an answer
changes nothing. -/
def Obligations.CommandWaitsForAnAnswer : Prop :=
  ∀ (i : Instr) (r : CommandRow) (s : State) (k : Nat), commandRow i s = some r → s.ph = .ready → s.rst = false → k < 6 →
    s.answers = List.replicate k .ok →
    ∃ t, exec i s = .next t ∧ t.ph = .busy ∧ t.op = r.op ∧ t.g = r.g ∧ t.answers = [] ∧ (k = 4 → t.cs = .low) ∧
      (k < 3 → t.fb = s.fb) ∧ (3 ≤ k → t.fb = r.frame) ∧ step t = .next t

/-- R94 and R95 (1), (4): whatever the answers are, a gate command leaves `G[a]` at the attempted mask and the other three
cached bytes as they were (that the cache is written first is decision D7). -/
def Obligations.CacheHoldsTheAttemptedMask : Prop :=
  ∀ (a : GateAddr) (m : Byte) (ch : GateChan) (s t : State), s.ph = .ready →
    (exec (.setg a m) s = .next t → t.gate a = m ∧ ∀ b, b ≠ a → t.gate b = s.gate b) ∧
    (exec (.ghi a ch) s = .next t → t.gate a = (s.gate a ||| gateBit ch) ∧ ∀ b, b ≠ a → t.gate b = s.gate b) ∧
    (exec (.glo a ch) s = .next t → t.gate a = (s.gate a &&& ~~~gateBit ch) ∧ ∀ b, b ≠ a → t.gate b = s.gate b)

/-- R95 (2), (3): on the cache `GHI` and `GLO` are idempotent, two `GHI` commute, two `GLO` commute, `GHI` and `GLO` on
different channels commute, and on the same channel the later one wins. -/
def Obligations.GateCacheLaws : Prop :=
  ∀ (a : GateAddr) (x y : GateChan) (i j : Instr) (s t u t' u' : State),
    s.ph = .ready → t.ph = .ready → t'.ph = .ready →
    exec i s = .next t → exec j t = .next u → exec j s = .next t' → exec i t' = .next u' →
    (i = .ghi a x → j = .ghi a x → u.g = t.g) ∧
    (i = .glo a x → j = .glo a x → u.g = t.g) ∧
    (i = .ghi a x → j = .ghi a y → u.g = u'.g) ∧
    (i = .glo a x → j = .glo a y → u.g = u'.g) ∧
    (i = .ghi a x → j = .glo a y → x ≠ y → u.g = u'.g) ∧
    (i = .ghi a x → j = .glo a x → u.g = t'.g ∧ u'.g = t.g)

/-- R96 (marked [derived]): if a gate command returns `OK`, its last bus event carries `[0x04, 0x00, G[a], 0x00]` in mode
`SUSP` between chip-select low and chip-select high, right after the three address events of `GatePattern(a)`. -/
def Obligations.GateSuccessMeansTheCachedMaskWasSent : Prop :=
  ∀ (a : GateAddr) (i : Instr) (s t : State), s.ph = .ready →
    (∃ m, i = .setg a m) ∨ (∃ ch, i = .ghi a ch) ∨ (∃ ch, i = .glo a ch) →
    exec i s = .next t → t.ph = .ready →
    t.res = .ok ∧ ∃ op, t.trace = s.trace ++ addrEvents s.order (gatePattern a) ++
      transferEvents ⟨0x04, 0x00, t.gate a, 0x00⟩ .susp ++ [.ret op .ok]

/-- R27, the rows of the five commands, and R100: whatever the answers are, a command leaves the parameter and the inputs of
caller and reset alone; a CV command leaves `G` alone; `FB` is the old frame or the command's; `FLT` changes only with
`FAULTED`, `RES` only at the end; the trace grows, answers are taken from the front, and no address line but
the command's own level, `X` or its old level is left in a latch. -/
def Obligations.CommandChangesNothingElse : Prop :=
  ∀ (i : Instr) (r : CommandRow) (s t : State), commandRow i s = some r → s.ph = .ready → exec i s = .next t →
    t.order = s.order ∧ t.rst = s.rst ∧ t.cmds = s.cmds ∧ t.g = r.g ∧ (t.fb = s.fb ∨ t.fb = r.frame) ∧
    (t.ph ≠ .faulted → t.flt = s.flt) ∧ (t.ph = .busy → t.res = s.res) ∧
    (∃ es, t.trace = s.trace ++ es) ∧ t.answers <:+ s.answers ∧
    (t.a0 = s.a0 ∨ t.a0 = .x ∨ t.a0 = levelOf r.pattern.l0) ∧ (t.a1 = s.a1 ∨ t.a1 = .x ∨ t.a1 = levelOf r.pattern.l1) ∧
    (t.a2 = s.a2 ∨ t.a2 = .x ∨ t.a2 = levelOf r.pattern.l2)

/-- The frame of a frame row (R54, R27): it writes neither the cache nor the parameter nor the inputs of caller and reset, and
with nothing left to run behind it, no address latch. -/
def Obligations.FrameRowChangesNothingElse : Prop :=
  ∀ (i : Instr) (s t : State), i.isCommand = false → exec i s = .next t →
    t.g = s.g ∧ t.order = s.order ∧ t.rst = s.rst ∧ t.cmds = s.cmds ∧ t.op = s.op ∧
    (t.ph ≠ .faulted → t.flt = s.flt) ∧ (∃ es, t.trace = s.trace ++ es) ∧ t.answers <:+ s.answers ∧
    (s.todo = [] → t.a0 = s.a0 ∧ t.a1 = s.a1 ∧ t.a2 = s.a2 ∧ (t.fb = s.fb ∨ t.fb = frameOfWord (encode i)))

/-- R138 and R139 (marked [derived] and decision D11, D29): a command that ends `FAULTED` reports exactly one cause, `BUS` when a bus
write was answered `fail` and `PIN` otherwise, in `FLT`, in `RES` and in its `RET` event. -/
def Obligations.FaultedCommandReportsOneCause : Prop :=
  ∀ (i : Instr) (r : CommandRow) (s t : State), commandRow i s = some r → s.ph = .ready → s.flt = .none →
    exec i s = .next t → t.ph = .faulted →
    ∃ es, t.trace = s.trace ++ es ++ [.ret r.op t.res] ∧
      ((t.flt = .bus ∧ t.res = .fatalBus ∧ ∃ f mode, Event.bus f mode .fail ∈ es) ∨
       (t.flt = .pin ∧ t.res = .fatalPin ∧ ∀ f mode, Event.bus f mode .fail ∉ es))

/-! ### Steps -/

/-- R120 and R21: in `READY`, with reset released and a word presented that spells `i`, the step takes the word from the port
and is `exec i`. -/
def Obligations.StepRunsTheDecodedCommand : Prop :=
  ∀ (s : State) (w : Word) (ws : List Word) (i : Instr), s.rst = false → s.ph = .ready → s.cmds = w :: ws →
    decodeCommand w = some i → step s = exec i { s with cmds := ws }

/-- R16: a step goes on from the position; where that position is the emission of the frame of row `i` inside an operation
that emits it, the step is `exec i` with the rest of the position left (the frame rows: the model's choice, log 9). -/
def Obligations.StepEmitsTheFrameAtThePosition : Prop :=
  ∀ (s : State) (i : Instr) (ops : List MicroOp), s.rst = false → running s = true →
    ((∃ g, i = .frameGate g ∧ emitsGateFrame g s.op = true) ∨ (∃ ch v, i = .frameCvraw ch v ∧ s.op = .cvraw) ∨
      (∃ p, i = .frameCvpol p ∧ s.op = .cvpol)) →
    s.todo = emitFrame (frameOfWord (encode i)) (modeOf s.op) ++ ops →
    step s = exec i { s with todo := ops }

/-- R62 (decision D4): an illegal word is taken, `RES <- REJECTED`, one `RET` event, nothing else. -/
def Obligations.IllegalWordIsRejected : Prop :=
  ∀ (s : State) (w : Word) (ws : List Word), s.rst = false → s.ph = .ready → s.cmds = w :: ws → decodeCommand w = none →
    step s = .next { s with cmds := ws, res := .rejected, trace := s.trace ++ [.ret .illegal .rejected] }

/-- R21 and R120 (decision D19): outside `READY` no command is taken: the step leaves the words presented, and `exec` of a
command leaves everything. -/
def Obligations.NoCommandIsTakenOutsideReady : Prop :=
  ∀ s : State, s.ph ≠ .ready →
    (∀ t, step s = .next t → t.cmds = s.cmds) ∧ (∀ i : Instr, i.isCommand = true → exec i s = .next s)

/-- R137 (decision D12) and R163: a faulted block, and an idle block with no command, does nothing at all. -/
def Obligations.FaultedOrIdleBlockRests : Prop :=
  ∀ s : State, s.rst = false → s.ph = .faulted ∨ (s.ph = .ready ∧ s.cmds = []) → step s = .next s

/-- R25 and R160 (decisions D9, D14; `FB` is left out, the spec gives it no value): the reset values hold in State.reset, after a
step with `rst` asserted from any state, and at once when `rst` is asserted. -/
def Obligations.ResetLeavesTheResetState : Prop :=
  let atReset := fun t : State =>
    t.g = ⟨0x00, 0x00, 0x00, 0x00⟩ ∧ t.cs = .x ∧ t.a0 = .x ∧ t.a1 = .x ∧ t.a2 = .x ∧ t.ph = .unbuilt ∧ t.flt = .none ∧
      t.res = .ok ∧ t.trace = []
  atReset State.reset ∧
  ∀ s : State,
    (s.rst = true → ∃ t, step s = .next t ∧ atReset t ∧ t.rst = true ∧ t.order = s.order ∧ t.cmds = s.cmds) ∧
    (atReset (assertReset s) ∧ (assertReset s).rst = true)

/-! ### INIT -/

/-- R81, `INIT` with every answer `ok`, from any state that is `UNBUILT` with reset released (so for every value of `FB` at
reset, and every ADDR_DRIVE_ORDER): chip-select high, the sweep Gt0, Gt1, Gt2, Gt3 with the all-zero gate frame in mode
`BLOCK`, then `RES`, `RET` and `READY`; `G` is not written. -/
def Obligations.CleanInitSweepsTheGateAddresses : Prop :=
  ∀ (s : State) (rest : List Ans), s.rst = false → s.ph = .unbuilt → s.answers = List.replicate 25 .ok ++ rest →
    step s = .next { s with
      cs := .high, a0 := .high, a1 := .high, a2 := .low
      fb := ⟨0x04, 0x00, 0x00, 0x00⟩
      ph := .ready, res := .ok
      trace := s.trace ++ initEvents s.order ++ [.ret .init .ok]
      op := .init, todo := [], answers := rest }

/-- R83 with R131 and R132 (the counts are marked [derived]; the clean-up drive is decision D11): the first `fail`, at any of the
25 places, ends `INIT`. At the four bus writes the cause is `BUS` after one clean-up drive, at the 21 pin drives it is `PIN`;
no later event of the sweep happens; `G` is not written. -/
def Obligations.InitEndsAtItsFirstFailure : Prop :=
  ∀ (s : State) (k : Nat) (rest : List Ans), s.rst = false → s.ph = .unbuilt → s.flt = .none → k < 25 →
    s.answers = List.replicate k .ok ++ .fail :: rest →
    let es := s.trace ++ (initEvents s.order).take k ++ (((initEvents s.order).drop k).take 1).map failing
    (k % 6 ≠ 5 → ∃ t, step s = .next t ∧ t.ph = .faulted ∧ t.flt = .pin ∧ t.res = .fatalPin ∧ t.g = s.g ∧
      t.trace = es ++ [.ret .init .fatalPin]) ∧
    (k % 6 = 5 → ∀ q rest', rest = q :: rest' → ∃ t, step s = .next t ∧ t.ph = .faulted ∧ t.flt = .bus ∧
      t.res = .fatalBus ∧ t.g = s.g ∧ t.cs = latchAfter true q ∧ t.trace = es ++ [.pin .cs true q, .ret .init .fatalBus]) ∧
    (k % 6 = 5 → rest = [] → ∃ t, step s = .next t ∧ t.ph = .init ∧ t.todo = [.cleanUp] ∧ t.g = s.g ∧ t.trace = es)

/-- R25, "`FB[0..3]` unspecified (any value; nothing reads it before the first `BuildFrame`)": from `UNBUILT`, what a step does
does not depend on `FB`. -/
def Obligations.FrameRegisterAtResetIsNeverRead : Prop :=
  ∀ (s t : State) (f : Frame), s.rst = false → s.ph = .unbuilt → step s = .next t →
    ∃ t', step { s with fb := f } = .next t' ∧ { t' with fb := t.fb } = t

/-! ### Invariants -/

/-- R16 and R17 (decisions D12, D13, D22): every step keeps the phase invariant. -/
def Obligations.StepKeepsThePhaseInvariant : Prop :=
  ∀ s t : State, PhaseInv s → step s = .next t → PhaseInv t

/-- R13, R15 and R18 (decision D9): every step keeps "the trace explains the latches and the result". -/
def Obligations.StepKeepsTheTraceExplainingTheLatches : Prop :=
  ∀ s t : State, TraceInv s → step s = .next t → TraceInv t

/-- R123, R54 and R64 (marked [derived]), with the two invariants above: every step keeps the whole invariant. Its wire part says
that address lines are driven only while chip-select is high, once each, before chip-select goes low; then exactly one bus write, of
a frame and a mode that the operation may send; then chip-select high; after a failure nothing but the clean-up and the `RET`. -/
def Obligations.StepKeepsTheInvariant : Prop :=
  ∀ s t : State, Inv s → step s = .next t → Inv t

/-- The invariant holds at State.reset (R25). -/
def Obligations.ResetStateMeetsTheInvariant : Prop := Inv State.reset

/-- R43, R141 and R160: what caller, environment and reset can do keeps the invariant. -/
def Obligations.OutsideMovesKeepTheInvariant : Prop :=
  ∀ (s : State) (w : Word) (r : Ans), Inv s →
    Inv (present w s) ∧ Inv (answer r s) ∧ Inv (assertReset s) ∧ Inv (releaseReset s)

/-- R123, "Whenever `PH = READY`, `CS = 1`" (marked [derived]). -/
def Obligations.ReadyMeansChipSelectHigh : Prop :=
  ∀ s : State, Inv s → s.ph = .ready → s.cs = .high ∧ s.flt = .none ∧ s.todo = []

/-- R123 and R178 (marked [derived]): every bus write in the trace happens with chip-select low and all three address lines at a
driven level, and the next event, if there is one, drives chip-select high. -/
def Obligations.BusWriteHappensWithChipSelectLow : Prop :=
  ∀ (s : State) (pre post : List Event) (f : Frame) (mode : Mode) (r : Ans), WireInv s →
    s.trace = pre ++ .bus f mode r :: post →
    latchOfTrace .cs pre = .low ∧ latchOfTrace .a0 pre ≠ .x ∧ latchOfTrace .a1 pre ≠ .x ∧ latchOfTrace .a2 pre ≠ .x ∧
    ∀ e es, post = e :: es → ∃ q, e = .pin .cs true q

/-! ### Rules of the whole machine -/

/-- R11: with reset released, a step changes `G` only by taking a gate command, and then only at that command's address. -/
def Obligations.OnlyGateCommandsWriteTheCache : Prop :=
  ∀ s t : State, s.rst = false → step s = .next t → t.g ≠ s.g →
    s.ph = .ready ∧ ∃ w ws a, s.cmds = w :: ws ∧
      ((∃ m, decodeCommand w = some (.setg a m)) ∨ (∃ ch, decodeCommand w = some (.ghi a ch)) ∨
        (∃ ch, decodeCommand w = some (.glo a ch))) ∧
      ∀ b, b ≠ a → t.gate b = s.gate b

/-- R15, "append-only": with reset released a step only appends to `T`, and it leaves the parameter alone (R26). -/
def Obligations.TraceOnlyGrows : Prop :=
  ∀ s t : State, step s = .next t → t.order = s.order ∧ t.rst = s.rst ∧ (s.rst = false → ∃ es, t.trace = s.trace ++ es)

/-- R16, the moves of `PH`, composed where one step runs an operation to its end (log 2). -/
def Obligations.PhaseMovesOnlyAsListed : Prop :=
  ∀ s t : State, step s = .next t →
    (s.rst = true → t.ph = .unbuilt) ∧
    (s.rst = false → s.ph = .unbuilt → t.ph ∈ [Phase.init, .ready, .faulted]) ∧
    (s.rst = false → s.ph = .init → t.ph ∈ [Phase.init, .ready, .faulted]) ∧
    (s.rst = false → s.ph = .ready → t.ph ∈ [Phase.ready, .busy, .faulted]) ∧
    (s.rst = false → s.ph = .busy → t.ph ∈ [Phase.busy, .ready, .faulted]) ∧
    (s.rst = false → s.ph = .faulted → t.ph = .faulted)

/-- R13, "The block never reads a latch to decide anything", and R110: two states that differ only in the latches step to two
states that differ only in the latches. -/
def Obligations.LatchesAreNeverRead : Prop :=
  ∀ s t s' : State, SameButLatches s t → step s = .next s' → ∃ t', step t = .next t' ∧ SameButLatches s' t'

/-- R113 and R43 (decision D18): it does not matter when an answer comes. With the answers `as ++ bs` a step reaches what it
reaches with `as`, and then, if the operation is still waiting, a further step with `bs`. -/
def Obligations.LateAnswersChangeNothing : Prop :=
  ∀ (s t u : State) (as bs : List Ans), s.rst = false → step (s.setAnswers as) = .next t →
    step (s.setAnswers (as ++ bs)) = .next u →
    (running t = true → step (t.setAnswers (t.answers ++ bs)) = .next u) ∧
    (running t = false → u = t.setAnswers (t.answers ++ bs))

/-- R19, R16, R17 and R18 (decision D13): `STATUS` bit by bit, and the codes. -/
def Obligations.StatusWordFields : Prop :=
  ∀ s : State,
    ((status s).extractLsb' 0 3 = match s.ph with | .unbuilt => 0#3 | .init => 1#3 | .ready => 2#3 | .busy => 3#3 | .faulted => 4#3) ∧
    ((status s).extractLsb' 3 2 = match s.flt with | .none => 0#2 | .pin => 1#2 | .bus => 2#2) ∧
    ((status s).extractLsb' 5 2 = match s.res with | .ok => 0#2 | .fatalPin => 1#2 | .fatalBus => 2#2 | .rejected => 3#2) ∧
    (status s).getLsbD 7 = false ∧ (cmdReady s = true ↔ (status s).extractLsb' 0 3 = 2#3)
end

