-- ==== Sys2Proof/Laws/Decode.lean ====
section
/-! SUPPORT. Arithmetic of the fields of a command word and of the bytes of a frame, and the tables read both ways. -/

namespace Sys2Proof

/-! ### Command words (R50) -/

theorem packCommand_toNat (op : BitVec 4) (addr chan : BitVec 3) (data : BitVec 16) :
    (packCommand op addr chan data).toNat =
      op.toNat * 2 ^ 28 + addr.toNat * 2 ^ 25 + chan.toNat * 2 ^ 22 + data.toNat := by
  have h1 := op.isLt
  have h2 := addr.isLt
  have h3 := chan.isLt
  have h4 := data.isLt
  simp only [packCommand, BitVec.toNat_append]
  rw [← Nat.shiftLeft_add_eq_or_of_lt (by omega), ← Nat.shiftLeft_add_eq_or_of_lt (by simp),
    ← Nat.shiftLeft_add_eq_or_of_lt (by omega), ← Nat.shiftLeft_add_eq_or_of_lt (by omega)]
  simp [Nat.shiftLeft_eq]
  omega

@[simp] theorem opField_packCommand (op : BitVec 4) (addr chan : BitVec 3) (data : BitVec 16) :
    opField (packCommand op addr chan data) = op := by
  apply BitVec.eq_of_toNat_eq
  simp only [opField, BitVec.extractLsb'_toNat, packCommand_toNat, Nat.shiftRight_eq_div_pow]
  omega

@[simp] theorem addrField_packCommand (op : BitVec 4) (addr chan : BitVec 3) (data : BitVec 16) :
    addrField (packCommand op addr chan data) = addr := by
  apply BitVec.eq_of_toNat_eq
  simp only [addrField, BitVec.extractLsb'_toNat, packCommand_toNat, Nat.shiftRight_eq_div_pow]
  omega

@[simp] theorem chanField_packCommand (op : BitVec 4) (addr chan : BitVec 3) (data : BitVec 16) :
    chanField (packCommand op addr chan data) = chan := by
  apply BitVec.eq_of_toNat_eq
  simp only [chanField, BitVec.extractLsb'_toNat, packCommand_toNat, Nat.shiftRight_eq_div_pow]
  omega

@[simp] theorem zeroField_packCommand (op : BitVec 4) (addr chan : BitVec 3) (data : BitVec 16) :
    zeroField (packCommand op addr chan data) = 0 := by
  apply BitVec.eq_of_toNat_eq
  have := data.isLt
  simp only [zeroField, BitVec.extractLsb'_toNat, packCommand_toNat, Nat.shiftRight_eq_div_pow, BitVec.ofNat_eq_ofNat,
    BitVec.toNat_ofNat]
  omega

@[simp] theorem dataField_packCommand (op : BitVec 4) (addr chan : BitVec 3) (data : BitVec 16) :
    dataField (packCommand op addr chan data) = data := by
  apply BitVec.eq_of_toNat_eq
  simp only [dataField, BitVec.extractLsb'_toNat, packCommand_toNat, Nat.shiftRight_eq_div_pow]
  omega

theorem dataHigh_eq (w : Word) : dataHigh w = (dataField w).extractLsb' 8 8 := by
  apply BitVec.eq_of_toNat_eq
  simp only [dataHigh, dataField, BitVec.extractLsb'_toNat, Nat.shiftRight_eq_div_pow]
  omega

theorem dataLow_eq (w : Word) : dataLow w = (dataField w).extractLsb' 0 8 := by
  apply BitVec.eq_of_toNat_eq
  simp only [dataLow, dataField, BitVec.extractLsb'_toNat, Nat.shiftRight_eq_div_pow]
  omega

@[simp] theorem byteData_high (m : Byte) : (byteData m).extractLsb' 8 8 = 0#8 := by
  revert m
  decide

@[simp] theorem byteData_low (m : Byte) : (byteData m).extractLsb' 0 8 = m := by
  revert m
  decide

theorem byteData_of_high (d : BitVec 16) (h : d.extractLsb' 8 8 = 0#8) : byteData (d.extractLsb' 0 8) = d := by
  apply BitVec.eq_of_toNat_eq
  have h := congrArg BitVec.toNat h
  have hd := d.isLt
  simp only [BitVec.extractLsb'_toNat, Nat.shiftRight_eq_div_pow, BitVec.toNat_ofNat] at h
  simp only [byteData, BitVec.toNat_append, BitVec.extractLsb'_toNat, BitVec.toNat_ofNat, Nat.shiftRight_eq_div_pow]
  simp
  omega

/-- A word whose `ZERO` is 0 is its other four fields (R50, R63). -/
theorem packCommand_fields (w : Word) (h : zeroField w = 0) :
    packCommand (opField w) (addrField w) (chanField w) (dataField w) = w := by
  have hw := w.isLt
  have h : w.toNat / 2 ^ 16 % 2 ^ 6 = 0 := by
    have := congrArg BitVec.toNat h
    simpa [zeroField, BitVec.extractLsb'_toNat, Nat.shiftRight_eq_div_pow] using this
  apply BitVec.eq_of_toNat_eq
  simp only [packCommand_toNat, opField, addrField, chanField, dataField, BitVec.extractLsb'_toNat, Nat.shiftRight_eq_div_pow]
  omega

/-! ### The ordinals read both ways (R5, R52) -/

@[simp] theorem gateAddrOf_gateOrdinal (a : GateAddr) : gateAddrOf (gateOrdinal a) = some a := by
  cases a <;> rfl

@[simp] theorem cvAddrOf_cvOrdinal (c : CvAddr) : cvAddrOf (cvOrdinal c) = some c := by
  cases c <;> rfl

@[simp] theorem gateChanOf_gateChanIndex (ch : GateChan) : gateChanOf (gateChanIndex ch) = ch := by
  cases ch <;> rfl

@[simp] theorem cvChanOf_cvChanIndex (ch : CvChan) : cvChanOf (cvChanIndex ch) = ch := by
  cases ch <;> rfl

theorem gateOrdinal_gateAddrOf : ∀ (v : BitVec 3) (a : GateAddr), gateAddrOf v = some a → gateOrdinal a = v := by
  decide

theorem cvOrdinal_cvAddrOf : ∀ (v : BitVec 3) (c : CvAddr), cvAddrOf v = some c → cvOrdinal c = v := by
  decide

@[simp] theorem gateChanIndex_gateChanOf : ∀ v : BitVec 3, gateChanIndex (gateChanOf v) = v := by
  decide

@[simp] theorem cvChanIndex_cvChanOf : ∀ v : BitVec 3, cvChanIndex (cvChanOf v) = v := by
  decide

/-! ### Frames (R36, R58) -/

theorem Frame.toWord_toNat (f : Frame) :
    f.toWord.toNat = f.b0.toNat * 2 ^ 24 + f.b1.toNat * 2 ^ 16 + f.b2.toNat * 2 ^ 8 + f.b3.toNat := by
  have h0 := f.b0.isLt
  have h1 := f.b1.isLt
  have h2 := f.b2.isLt
  have h3 := f.b3.isLt
  simp only [Frame.toWord, BitVec.toNat_append]
  rw [← Nat.shiftLeft_add_eq_or_of_lt (by omega), ← Nat.shiftLeft_add_eq_or_of_lt (by omega),
    ← Nat.shiftLeft_add_eq_or_of_lt (by omega)]
  simp [Nat.shiftLeft_eq]
  omega

@[simp] theorem frameOfWord_toWord (f : Frame) : frameOfWord f.toWord = f := by
  have h0 := f.b0.isLt
  have h1 := f.b1.isLt
  have h2 := f.b2.isLt
  have h3 := f.b3.isLt
  obtain ⟨b0, b1, b2, b3⟩ := f
  simp only [frameOfWord, Frame.mk.injEq]
  refine ⟨?_, ?_, ?_, ?_⟩ <;> apply BitVec.eq_of_toNat_eq <;>
    simp only [BitVec.extractLsb'_toNat, Frame.toWord_toNat, Nat.shiftRight_eq_div_pow] <;> omega

@[simp] theorem toWord_frameOfWord (w : Word) : (frameOfWord w).toWord = w := by
  have := w.isLt
  apply BitVec.eq_of_toNat_eq
  simp only [Frame.toWord_toNat, frameOfWord, BitVec.extractLsb'_toNat, Nat.shiftRight_eq_div_pow]
  omega

/-- A frame is determined by its 32-bit number. -/
theorem Frame.toWord_injective {f k : Frame} (h : f.toWord = k.toWord) : f = k := by
  rw [← frameOfWord_toWord f, h, frameOfWord_toWord]

@[simp] theorem cvChanOfCode_cvCode (ch : CvChan) : cvChanOfCode ((cvCode ch).extractLsb' 4 3) = ch := by
  cases ch <;> rfl

theorem cvCode_cvChanOfCode : ∀ k : BitVec 3, cvCode (cvChanOfCode k) = 0#1 ++ k ++ 0#4 := by
  decide

end Sys2Proof
end

