-- ==== Sys2Proof/Laws/State.lean ====
section
/-! SUPPORT. One lemma per field per named update of the state, true by unfolding, so that no later proof unfolds a record
update. An update writes the fields that 10_state.md R27 gives its rule, and no other. -/

namespace Sys2Proof.Machine

/-! #### `setGate` -/

@[simp] theorem setGate_cs (a : GateAddr) (v : Byte) (s : State) : (s.setGate a v).cs = s.cs := by cases a <;> rfl
@[simp] theorem setGate_a0 (a : GateAddr) (v : Byte) (s : State) : (s.setGate a v).a0 = s.a0 := by cases a <;> rfl
@[simp] theorem setGate_a1 (a : GateAddr) (v : Byte) (s : State) : (s.setGate a v).a1 = s.a1 := by cases a <;> rfl
@[simp] theorem setGate_a2 (a : GateAddr) (v : Byte) (s : State) : (s.setGate a v).a2 = s.a2 := by cases a <;> rfl
@[simp] theorem setGate_fb (a : GateAddr) (v : Byte) (s : State) : (s.setGate a v).fb = s.fb := by cases a <;> rfl
@[simp] theorem setGate_ph (a : GateAddr) (v : Byte) (s : State) : (s.setGate a v).ph = s.ph := by cases a <;> rfl
@[simp] theorem setGate_flt (a : GateAddr) (v : Byte) (s : State) : (s.setGate a v).flt = s.flt := by cases a <;> rfl
@[simp] theorem setGate_res (a : GateAddr) (v : Byte) (s : State) : (s.setGate a v).res = s.res := by cases a <;> rfl
@[simp] theorem setGate_trace (a : GateAddr) (v : Byte) (s : State) : (s.setGate a v).trace = s.trace := by cases a <;> rfl
@[simp] theorem setGate_op (a : GateAddr) (v : Byte) (s : State) : (s.setGate a v).op = s.op := by cases a <;> rfl
@[simp] theorem setGate_todo (a : GateAddr) (v : Byte) (s : State) : (s.setGate a v).todo = s.todo := by cases a <;> rfl
@[simp] theorem setGate_order (a : GateAddr) (v : Byte) (s : State) : (s.setGate a v).order = s.order := by cases a <;> rfl
@[simp] theorem setGate_rst (a : GateAddr) (v : Byte) (s : State) : (s.setGate a v).rst = s.rst := by cases a <;> rfl
@[simp] theorem setGate_cmds (a : GateAddr) (v : Byte) (s : State) : (s.setGate a v).cmds = s.cmds := by cases a <;> rfl
@[simp] theorem setGate_answers (a : GateAddr) (v : Byte) (s : State) : (s.setGate a v).answers = s.answers := by cases a <;> rfl

/-! #### `setLatch` -/

@[simp] theorem setLatch_g (l : Line) (v : Level) (s : State) : (s.setLatch l v).g = s.g := by cases l <;> rfl
@[simp] theorem setLatch_fb (l : Line) (v : Level) (s : State) : (s.setLatch l v).fb = s.fb := by cases l <;> rfl
@[simp] theorem setLatch_ph (l : Line) (v : Level) (s : State) : (s.setLatch l v).ph = s.ph := by cases l <;> rfl
@[simp] theorem setLatch_flt (l : Line) (v : Level) (s : State) : (s.setLatch l v).flt = s.flt := by cases l <;> rfl
@[simp] theorem setLatch_res (l : Line) (v : Level) (s : State) : (s.setLatch l v).res = s.res := by cases l <;> rfl
@[simp] theorem setLatch_trace (l : Line) (v : Level) (s : State) : (s.setLatch l v).trace = s.trace := by cases l <;> rfl
@[simp] theorem setLatch_op (l : Line) (v : Level) (s : State) : (s.setLatch l v).op = s.op := by cases l <;> rfl
@[simp] theorem setLatch_todo (l : Line) (v : Level) (s : State) : (s.setLatch l v).todo = s.todo := by cases l <;> rfl
@[simp] theorem setLatch_order (l : Line) (v : Level) (s : State) : (s.setLatch l v).order = s.order := by cases l <;> rfl
@[simp] theorem setLatch_rst (l : Line) (v : Level) (s : State) : (s.setLatch l v).rst = s.rst := by cases l <;> rfl
@[simp] theorem setLatch_cmds (l : Line) (v : Level) (s : State) : (s.setLatch l v).cmds = s.cmds := by cases l <;> rfl
@[simp] theorem setLatch_answers (l : Line) (v : Level) (s : State) : (s.setLatch l v).answers = s.answers := by cases l <;> rfl

/-! #### `record` -/

@[simp] theorem record_g (e : Event) (s : State) : (s.record e).g = s.g := rfl
@[simp] theorem record_cs (e : Event) (s : State) : (s.record e).cs = s.cs := rfl
@[simp] theorem record_a0 (e : Event) (s : State) : (s.record e).a0 = s.a0 := rfl
@[simp] theorem record_a1 (e : Event) (s : State) : (s.record e).a1 = s.a1 := rfl
@[simp] theorem record_a2 (e : Event) (s : State) : (s.record e).a2 = s.a2 := rfl
@[simp] theorem record_fb (e : Event) (s : State) : (s.record e).fb = s.fb := rfl
@[simp] theorem record_ph (e : Event) (s : State) : (s.record e).ph = s.ph := rfl
@[simp] theorem record_flt (e : Event) (s : State) : (s.record e).flt = s.flt := rfl
@[simp] theorem record_res (e : Event) (s : State) : (s.record e).res = s.res := rfl
@[simp] theorem record_trace (e : Event) (s : State) : (s.record e).trace = s.trace ++ [e] := rfl
@[simp] theorem record_op (e : Event) (s : State) : (s.record e).op = s.op := rfl
@[simp] theorem record_todo (e : Event) (s : State) : (s.record e).todo = s.todo := rfl
@[simp] theorem record_order (e : Event) (s : State) : (s.record e).order = s.order := rfl
@[simp] theorem record_rst (e : Event) (s : State) : (s.record e).rst = s.rst := rfl
@[simp] theorem record_cmds (e : Event) (s : State) : (s.record e).cmds = s.cmds := rfl
@[simp] theorem record_answers (e : Event) (s : State) : (s.record e).answers = s.answers := rfl

/-! #### `buildFrame` -/

@[simp] theorem buildFrame_g (f : Frame) (s : State) : (s.buildFrame f).g = s.g := rfl
@[simp] theorem buildFrame_cs (f : Frame) (s : State) : (s.buildFrame f).cs = s.cs := rfl
@[simp] theorem buildFrame_a0 (f : Frame) (s : State) : (s.buildFrame f).a0 = s.a0 := rfl
@[simp] theorem buildFrame_a1 (f : Frame) (s : State) : (s.buildFrame f).a1 = s.a1 := rfl
@[simp] theorem buildFrame_a2 (f : Frame) (s : State) : (s.buildFrame f).a2 = s.a2 := rfl
@[simp] theorem buildFrame_fb (f : Frame) (s : State) : (s.buildFrame f).fb = f := rfl
@[simp] theorem buildFrame_ph (f : Frame) (s : State) : (s.buildFrame f).ph = s.ph := rfl
@[simp] theorem buildFrame_flt (f : Frame) (s : State) : (s.buildFrame f).flt = s.flt := rfl
@[simp] theorem buildFrame_res (f : Frame) (s : State) : (s.buildFrame f).res = s.res := rfl
@[simp] theorem buildFrame_trace (f : Frame) (s : State) : (s.buildFrame f).trace = s.trace := rfl
@[simp] theorem buildFrame_op (f : Frame) (s : State) : (s.buildFrame f).op = s.op := rfl
@[simp] theorem buildFrame_todo (f : Frame) (s : State) : (s.buildFrame f).todo = s.todo := rfl
@[simp] theorem buildFrame_order (f : Frame) (s : State) : (s.buildFrame f).order = s.order := rfl
@[simp] theorem buildFrame_rst (f : Frame) (s : State) : (s.buildFrame f).rst = s.rst := rfl
@[simp] theorem buildFrame_cmds (f : Frame) (s : State) : (s.buildFrame f).cmds = s.cmds := rfl
@[simp] theorem buildFrame_answers (f : Frame) (s : State) : (s.buildFrame f).answers = s.answers := rfl

/-! #### `setAnswers` -/

@[simp] theorem setAnswers_g (as : List Ans) (s : State) : (s.setAnswers as).g = s.g := rfl
@[simp] theorem setAnswers_cs (as : List Ans) (s : State) : (s.setAnswers as).cs = s.cs := rfl
@[simp] theorem setAnswers_a0 (as : List Ans) (s : State) : (s.setAnswers as).a0 = s.a0 := rfl
@[simp] theorem setAnswers_a1 (as : List Ans) (s : State) : (s.setAnswers as).a1 = s.a1 := rfl
@[simp] theorem setAnswers_a2 (as : List Ans) (s : State) : (s.setAnswers as).a2 = s.a2 := rfl
@[simp] theorem setAnswers_fb (as : List Ans) (s : State) : (s.setAnswers as).fb = s.fb := rfl
@[simp] theorem setAnswers_ph (as : List Ans) (s : State) : (s.setAnswers as).ph = s.ph := rfl
@[simp] theorem setAnswers_flt (as : List Ans) (s : State) : (s.setAnswers as).flt = s.flt := rfl
@[simp] theorem setAnswers_res (as : List Ans) (s : State) : (s.setAnswers as).res = s.res := rfl
@[simp] theorem setAnswers_trace (as : List Ans) (s : State) : (s.setAnswers as).trace = s.trace := rfl
@[simp] theorem setAnswers_op (as : List Ans) (s : State) : (s.setAnswers as).op = s.op := rfl
@[simp] theorem setAnswers_todo (as : List Ans) (s : State) : (s.setAnswers as).todo = s.todo := rfl
@[simp] theorem setAnswers_order (as : List Ans) (s : State) : (s.setAnswers as).order = s.order := rfl
@[simp] theorem setAnswers_rst (as : List Ans) (s : State) : (s.setAnswers as).rst = s.rst := rfl
@[simp] theorem setAnswers_cmds (as : List Ans) (s : State) : (s.setAnswers as).cmds = s.cmds := rfl
@[simp] theorem setAnswers_answers (as : List Ans) (s : State) : (s.setAnswers as).answers = as := rfl

/-! #### `raise` -/

@[simp] theorem raise_g (x : Cause) (s : State) : (raise x s).g = s.g := rfl
@[simp] theorem raise_cs (x : Cause) (s : State) : (raise x s).cs = s.cs := rfl
@[simp] theorem raise_a0 (x : Cause) (s : State) : (raise x s).a0 = s.a0 := rfl
@[simp] theorem raise_a1 (x : Cause) (s : State) : (raise x s).a1 = s.a1 := rfl
@[simp] theorem raise_a2 (x : Cause) (s : State) : (raise x s).a2 = s.a2 := rfl
@[simp] theorem raise_fb (x : Cause) (s : State) : (raise x s).fb = s.fb := rfl
@[simp] theorem raise_ph (x : Cause) (s : State) : (raise x s).ph = .faulted := rfl
@[simp] theorem raise_flt (x : Cause) (s : State) : (raise x s).flt = raisedFault s.flt x := rfl
@[simp] theorem raise_res (x : Cause) (s : State) : (raise x s).res = fatalOf x := rfl
@[simp] theorem raise_trace (x : Cause) (s : State) : (raise x s).trace = s.trace ++ [.ret s.op (fatalOf x)] := rfl
@[simp] theorem raise_op (x : Cause) (s : State) : (raise x s).op = s.op := rfl
@[simp] theorem raise_todo (x : Cause) (s : State) : (raise x s).todo = [] := rfl
@[simp] theorem raise_order (x : Cause) (s : State) : (raise x s).order = s.order := rfl
@[simp] theorem raise_rst (x : Cause) (s : State) : (raise x s).rst = s.rst := rfl
@[simp] theorem raise_cmds (x : Cause) (s : State) : (raise x s).cmds = s.cmds := rfl
@[simp] theorem raise_answers (x : Cause) (s : State) : (raise x s).answers = s.answers := rfl

/-! #### `complete` -/

@[simp] theorem complete_g (s : State) : (complete s).g = s.g := rfl
@[simp] theorem complete_cs (s : State) : (complete s).cs = s.cs := rfl
@[simp] theorem complete_a0 (s : State) : (complete s).a0 = s.a0 := rfl
@[simp] theorem complete_a1 (s : State) : (complete s).a1 = s.a1 := rfl
@[simp] theorem complete_a2 (s : State) : (complete s).a2 = s.a2 := rfl
@[simp] theorem complete_fb (s : State) : (complete s).fb = s.fb := rfl
@[simp] theorem complete_ph (s : State) : (complete s).ph = .ready := rfl
@[simp] theorem complete_flt (s : State) : (complete s).flt = s.flt := rfl
@[simp] theorem complete_res (s : State) : (complete s).res = .ok := rfl
@[simp] theorem complete_trace (s : State) : (complete s).trace = s.trace ++ [.ret s.op .ok] := rfl
@[simp] theorem complete_op (s : State) : (complete s).op = s.op := rfl
@[simp] theorem complete_todo (s : State) : (complete s).todo = [] := rfl
@[simp] theorem complete_order (s : State) : (complete s).order = s.order := rfl
@[simp] theorem complete_rst (s : State) : (complete s).rst = s.rst := rfl
@[simp] theorem complete_cmds (s : State) : (complete s).cmds = s.cmds := rfl
@[simp] theorem complete_answers (s : State) : (complete s).answers = s.answers := rfl

/-! #### `suspend` -/

@[simp] theorem suspend_g (steps : List MicroOp) (s : State) : (suspend steps s).g = s.g := rfl
@[simp] theorem suspend_cs (steps : List MicroOp) (s : State) : (suspend steps s).cs = s.cs := rfl
@[simp] theorem suspend_a0 (steps : List MicroOp) (s : State) : (suspend steps s).a0 = s.a0 := rfl
@[simp] theorem suspend_a1 (steps : List MicroOp) (s : State) : (suspend steps s).a1 = s.a1 := rfl
@[simp] theorem suspend_a2 (steps : List MicroOp) (s : State) : (suspend steps s).a2 = s.a2 := rfl
@[simp] theorem suspend_fb (steps : List MicroOp) (s : State) : (suspend steps s).fb = s.fb := rfl
@[simp] theorem suspend_ph (steps : List MicroOp) (s : State) : (suspend steps s).ph = s.ph := rfl
@[simp] theorem suspend_flt (steps : List MicroOp) (s : State) : (suspend steps s).flt = s.flt := rfl
@[simp] theorem suspend_res (steps : List MicroOp) (s : State) : (suspend steps s).res = s.res := rfl
@[simp] theorem suspend_trace (steps : List MicroOp) (s : State) : (suspend steps s).trace = s.trace := rfl
@[simp] theorem suspend_op (steps : List MicroOp) (s : State) : (suspend steps s).op = s.op := rfl
@[simp] theorem suspend_todo (steps : List MicroOp) (s : State) : (suspend steps s).todo = steps := rfl
@[simp] theorem suspend_order (steps : List MicroOp) (s : State) : (suspend steps s).order = s.order := rfl
@[simp] theorem suspend_rst (steps : List MicroOp) (s : State) : (suspend steps s).rst = s.rst := rfl
@[simp] theorem suspend_cmds (steps : List MicroOp) (s : State) : (suspend steps s).cmds = s.cmds := rfl
@[simp] theorem suspend_answers (steps : List MicroOp) (s : State) : (suspend steps s).answers = s.answers := rfl

/-! #### `begin` -/

@[simp] theorem begin_g (op : Op) (s : State) : (begin op s).g = s.g := rfl
@[simp] theorem begin_cs (op : Op) (s : State) : (begin op s).cs = s.cs := rfl
@[simp] theorem begin_a0 (op : Op) (s : State) : (begin op s).a0 = s.a0 := rfl
@[simp] theorem begin_a1 (op : Op) (s : State) : (begin op s).a1 = s.a1 := rfl
@[simp] theorem begin_a2 (op : Op) (s : State) : (begin op s).a2 = s.a2 := rfl
@[simp] theorem begin_fb (op : Op) (s : State) : (begin op s).fb = s.fb := rfl
@[simp] theorem begin_ph (op : Op) (s : State) : (begin op s).ph = .busy := rfl
@[simp] theorem begin_flt (op : Op) (s : State) : (begin op s).flt = s.flt := rfl
@[simp] theorem begin_res (op : Op) (s : State) : (begin op s).res = s.res := rfl
@[simp] theorem begin_trace (op : Op) (s : State) : (begin op s).trace = s.trace := rfl
@[simp] theorem begin_op (op : Op) (s : State) : (begin op s).op = op := rfl
@[simp] theorem begin_todo (op : Op) (s : State) : (begin op s).todo = s.todo := rfl
@[simp] theorem begin_order (op : Op) (s : State) : (begin op s).order = s.order := rfl
@[simp] theorem begin_rst (op : Op) (s : State) : (begin op s).rst = s.rst := rfl
@[simp] theorem begin_cmds (op : Op) (s : State) : (begin op s).cmds = s.cmds := rfl
@[simp] theorem begin_answers (op : Op) (s : State) : (begin op s).answers = s.answers := rfl

/-! #### `reject` -/

@[simp] theorem reject_g (s : State) : (reject s).g = s.g := rfl
@[simp] theorem reject_cs (s : State) : (reject s).cs = s.cs := rfl
@[simp] theorem reject_a0 (s : State) : (reject s).a0 = s.a0 := rfl
@[simp] theorem reject_a1 (s : State) : (reject s).a1 = s.a1 := rfl
@[simp] theorem reject_a2 (s : State) : (reject s).a2 = s.a2 := rfl
@[simp] theorem reject_fb (s : State) : (reject s).fb = s.fb := rfl
@[simp] theorem reject_ph (s : State) : (reject s).ph = s.ph := rfl
@[simp] theorem reject_flt (s : State) : (reject s).flt = s.flt := rfl
@[simp] theorem reject_res (s : State) : (reject s).res = .rejected := rfl
@[simp] theorem reject_trace (s : State) : (reject s).trace = s.trace ++ [.ret .illegal .rejected] := rfl
@[simp] theorem reject_op (s : State) : (reject s).op = s.op := rfl
@[simp] theorem reject_todo (s : State) : (reject s).todo = s.todo := rfl
@[simp] theorem reject_order (s : State) : (reject s).order = s.order := rfl
@[simp] theorem reject_rst (s : State) : (reject s).rst = s.rst := rfl
@[simp] theorem reject_cmds (s : State) : (reject s).cmds = s.cmds := rfl
@[simp] theorem reject_answers (s : State) : (reject s).answers = s.answers := rfl

/-! #### `takeCommand` -/

@[simp] theorem takeCommand_g (s : State) : (takeCommand s).g = s.g := rfl
@[simp] theorem takeCommand_cs (s : State) : (takeCommand s).cs = s.cs := rfl
@[simp] theorem takeCommand_a0 (s : State) : (takeCommand s).a0 = s.a0 := rfl
@[simp] theorem takeCommand_a1 (s : State) : (takeCommand s).a1 = s.a1 := rfl
@[simp] theorem takeCommand_a2 (s : State) : (takeCommand s).a2 = s.a2 := rfl
@[simp] theorem takeCommand_fb (s : State) : (takeCommand s).fb = s.fb := rfl
@[simp] theorem takeCommand_ph (s : State) : (takeCommand s).ph = s.ph := rfl
@[simp] theorem takeCommand_flt (s : State) : (takeCommand s).flt = s.flt := rfl
@[simp] theorem takeCommand_res (s : State) : (takeCommand s).res = s.res := rfl
@[simp] theorem takeCommand_trace (s : State) : (takeCommand s).trace = s.trace := rfl
@[simp] theorem takeCommand_op (s : State) : (takeCommand s).op = s.op := rfl
@[simp] theorem takeCommand_todo (s : State) : (takeCommand s).todo = s.todo := rfl
@[simp] theorem takeCommand_order (s : State) : (takeCommand s).order = s.order := rfl
@[simp] theorem takeCommand_rst (s : State) : (takeCommand s).rst = s.rst := rfl
@[simp] theorem takeCommand_cmds (s : State) : (takeCommand s).cmds = s.cmds.tail := rfl
@[simp] theorem takeCommand_answers (s : State) : (takeCommand s).answers = s.answers := rfl

/-! #### `hardReset` -/

@[simp] theorem hardReset_g (s : State) : (hardReset s).g = State.reset.g := rfl
@[simp] theorem hardReset_cs (s : State) : (hardReset s).cs = State.reset.cs := rfl
@[simp] theorem hardReset_a0 (s : State) : (hardReset s).a0 = State.reset.a0 := rfl
@[simp] theorem hardReset_a1 (s : State) : (hardReset s).a1 = State.reset.a1 := rfl
@[simp] theorem hardReset_a2 (s : State) : (hardReset s).a2 = State.reset.a2 := rfl
@[simp] theorem hardReset_fb (s : State) : (hardReset s).fb = State.reset.fb := rfl
@[simp] theorem hardReset_ph (s : State) : (hardReset s).ph = State.reset.ph := rfl
@[simp] theorem hardReset_flt (s : State) : (hardReset s).flt = State.reset.flt := rfl
@[simp] theorem hardReset_res (s : State) : (hardReset s).res = State.reset.res := rfl
@[simp] theorem hardReset_trace (s : State) : (hardReset s).trace = State.reset.trace := rfl
@[simp] theorem hardReset_op (s : State) : (hardReset s).op = State.reset.op := rfl
@[simp] theorem hardReset_todo (s : State) : (hardReset s).todo = State.reset.todo := rfl
@[simp] theorem hardReset_order (s : State) : (hardReset s).order = s.order := rfl
@[simp] theorem hardReset_rst (s : State) : (hardReset s).rst = s.rst := rfl
@[simp] theorem hardReset_cmds (s : State) : (hardReset s).cmds = s.cmds := rfl
@[simp] theorem hardReset_answers (s : State) : (hardReset s).answers = State.reset.answers := rfl

/-! #### Reading back `G` and the latches -/

@[simp] theorem gate_setGate_same (a : GateAddr) (v : Byte) (s : State) : (s.setGate a v).gate a = v := by
  cases a <;> rfl

@[simp] theorem gate_setGate_other (a b : GateAddr) (v : Byte) (s : State) (h : b ≠ a) :
    (s.setGate a v).gate b = s.gate b := by
  cases a <;> cases b <;> first | rfl | exact absurd rfl h

@[simp] theorem latch_setLatch_same (l : Line) (v : Level) (s : State) : (s.setLatch l v).latch l = v := by
  cases l <;> rfl

@[simp] theorem latch_setLatch_other (l k : Line) (v : Level) (s : State) (h : k ≠ l) :
    (s.setLatch l v).latch k = s.latch k := by
  cases l <;> cases k <;> first | rfl | exact absurd rfl h

@[simp] theorem latch_setGate (a : GateAddr) (v : Byte) (k : Line) (s : State) : (s.setGate a v).latch k = s.latch k := by
  cases a <;> cases k <;> rfl

@[simp] theorem gate_setLatch (l : Line) (v : Level) (a : GateAddr) (s : State) : (s.setLatch l v).gate a = s.gate a := by
  cases l <;> cases a <;> rfl

@[simp] theorem gate_setAnswers (as : List Ans) (a : GateAddr) (s : State) : (s.setAnswers as).gate a = s.gate a := by cases a <;> rfl
@[simp] theorem latch_setAnswers (as : List Ans) (l : Line) (s : State) : (s.setAnswers as).latch l = s.latch l := by cases l <;> rfl
@[simp] theorem gate_record (e : Event) (a : GateAddr) (s : State) : (s.record e).gate a = s.gate a := by cases a <;> rfl
@[simp] theorem latch_record (e : Event) (l : Line) (s : State) : (s.record e).latch l = s.latch l := by cases l <;> rfl
@[simp] theorem gate_buildFrame (f : Frame) (a : GateAddr) (s : State) : (s.buildFrame f).gate a = s.gate a := by cases a <;> rfl
@[simp] theorem latch_buildFrame (f : Frame) (l : Line) (s : State) : (s.buildFrame f).latch l = s.latch l := by cases l <;> rfl
@[simp] theorem gate_raise (x : Cause) (a : GateAddr) (s : State) : (raise x s).gate a = s.gate a := by cases a <;> rfl
@[simp] theorem latch_raise (x : Cause) (l : Line) (s : State) : (raise x s).latch l = s.latch l := by cases l <;> rfl
@[simp] theorem gate_complete (a : GateAddr) (s : State) : (complete s).gate a = s.gate a := by cases a <;> rfl
@[simp] theorem latch_complete (l : Line) (s : State) : (complete s).latch l = s.latch l := by cases l <;> rfl
@[simp] theorem gate_suspend (steps : List MicroOp) (a : GateAddr) (s : State) : (suspend steps s).gate a = s.gate a := by cases a <;> rfl
@[simp] theorem latch_suspend (steps : List MicroOp) (l : Line) (s : State) : (suspend steps s).latch l = s.latch l := by cases l <;> rfl
@[simp] theorem gate_begin (op : Op) (a : GateAddr) (s : State) : (begin op s).gate a = s.gate a := by cases a <;> rfl
@[simp] theorem latch_begin (op : Op) (l : Line) (s : State) : (begin op s).latch l = s.latch l := by cases l <;> rfl
@[simp] theorem gate_reject (a : GateAddr) (s : State) : (reject s).gate a = s.gate a := by cases a <;> rfl
@[simp] theorem latch_reject (l : Line) (s : State) : (reject s).latch l = s.latch l := by cases l <;> rfl
@[simp] theorem gate_takeCommand (a : GateAddr) (s : State) : (takeCommand s).gate a = s.gate a := by cases a <;> rfl
@[simp] theorem latch_takeCommand (l : Line) (s : State) : (takeCommand s).latch l = s.latch l := by cases l <;> rfl

/-- Two states with the same cache read the same `G[a]`. -/
theorem gate_of_g {s t : State} (h : s.g = t.g) (a : GateAddr) : s.gate a = t.gate a := by
  cases a <;> simp [State.gate, h]

end Sys2Proof.Machine
end

