-- ==== Sys2Proof/Laws/Run.lean ====
section
/-! SUPPORT. What the shared operations can do, said once: the environment's answer, the two primitives that take one, the
clean-up drive, and running a step list. Later proofs cite these and do not unfold the operations. -/

namespace Sys2Proof.Machine

/-! ### Asking the environment (R113 to R115) -/

theorem env_waits {s : State} (h : s.answers = []) : env s = none := by
  simp [env, h]

theorem env_answers {s : State} {r : Ans} {rest : List Ans} (h : s.answers = r :: rest) :
    env s = some (r, s.setAnswers rest) := by
  simp [env, h]

theorem drivePin_waits {l : Line} {v : Bool} {s : State} (h : s.answers = []) : drivePin l v s = none := by
  simp [drivePin, env_waits h]

theorem drivePin_answers {l : Line} {v : Bool} {s : State} {r : Ans} {rest : List Ans} (h : s.answers = r :: rest) :
    drivePin l v s =
      some (r, ((State.setLatch (s.setAnswers rest) l (latchAfter v r)).record (.pin l v r))) := by
  simp [drivePin, env_answers h]

theorem busWrite_waits {mode : Mode} {s : State} (h : s.answers = []) : busWrite mode s = none := by
  simp [busWrite, env_waits h]

theorem busWrite_answers {mode : Mode} {s : State} {r : Ans} {rest : List Ans} (h : s.answers = r :: rest) :
    busWrite mode s = some (r, (State.record (s.setAnswers rest) (.bus s.fb mode r))) := by
  simp [busWrite, env_answers h]

/-! ### Running a step list -/

theorem run_nil (s : State) : run [] s = complete s := rfl

theorem run_build (f : Frame) (rest : List MicroOp) (s : State) : run (.build f :: rest) s = run rest (s.buildFrame f) := rfl

theorem run_cleanUp (rest : List MicroOp) (s : State) : run (.cleanUp :: rest) s = cleanUp s := rfl

theorem run_drive_waits {l : Line} {v : Bool} {rest : List MicroOp} {s : State} (h : s.answers = []) :
    run (.drive l v :: rest) s = suspend (.drive l v :: rest) s := by
  simp [run, drivePin_waits h]

theorem run_drive_ok {l : Line} {v : Bool} {rest : List MicroOp} {s : State} {as : List Ans} (h : s.answers = .ok :: as) :
    run (.drive l v :: rest) s =
      run rest ((State.setLatch (s.setAnswers as) l (levelOf v)).record (.pin l v .ok)) := by
  simp [run, drivePin_answers h, latchAfter]

theorem run_drive_fail {l : Line} {v : Bool} {rest : List MicroOp} {s : State} {as : List Ans} (h : s.answers = .fail :: as) :
    run (.drive l v :: rest) s =
      raise .pin ((State.setLatch (s.setAnswers as) l .x).record (.pin l v .fail)) := by
  simp [run, drivePin_answers h, latchAfter]

theorem run_write_waits {mode : Mode} {rest : List MicroOp} {s : State} (h : s.answers = []) :
    run (.write mode :: rest) s = suspend (.write mode :: rest) s := by
  simp [run, busWrite_waits h]

theorem run_write_ok {mode : Mode} {rest : List MicroOp} {s : State} {as : List Ans} (h : s.answers = .ok :: as) :
    run (.write mode :: rest) s = run rest (State.record (s.setAnswers as) (.bus s.fb mode .ok)) := by
  simp [run, busWrite_answers h]

theorem run_write_fail {mode : Mode} {rest : List MicroOp} {s : State} {as : List Ans} (h : s.answers = .fail :: as) :
    run (.write mode :: rest) s = cleanUp (State.record (s.setAnswers as) (.bus s.fb mode .fail)) := by
  simp [run, busWrite_answers h]

theorem cleanUp_waits {s : State} (h : s.answers = []) : cleanUp s = suspend [.cleanUp] s := by
  simp [cleanUp, drivePin_waits h]

theorem cleanUp_answers {s : State} {r : Ans} {as : List Ans} (h : s.answers = r :: as) :
    cleanUp s = raise .bus ((State.setLatch (s.setAnswers as) .cs (latchAfter true r)).record (.pin .cs true r)) := by
  simp [cleanUp, drivePin_answers h]

/-- Everything running a step list can do: `Runs ops s t` is read "running `ops` from `s` gives `t`". A property of what
`run` answers is proved by induction over this. -/
inductive Runs : List MicroOp → State → State → Prop where
  | nil (s : State) : Runs [] s (complete s)
  | wait {op : MicroOp} {ops : List MicroOp} {s : State} (h : s.answers = []) (hb : ∀ f, op ≠ .build f) (hc : op ≠ .cleanUp) :
      Runs (op :: ops) s (suspend (op :: ops) s)
  | build {f : Frame} {ops : List MicroOp} {s t : State} (run : Runs ops (s.buildFrame f) t) : Runs (.build f :: ops) s t
  | drive_ok {l : Line} {v : Bool} {ops : List MicroOp} {s t : State} {as : List Ans} (h : s.answers = .ok :: as)
      (run : Runs ops ((State.setLatch (s.setAnswers as) l (levelOf v)).record (.pin l v .ok)) t) :
      Runs (.drive l v :: ops) s t
  | drive_fail {l : Line} {v : Bool} {ops : List MicroOp} {s : State} {as : List Ans} (h : s.answers = .fail :: as) :
      Runs (.drive l v :: ops) s (raise .pin ((State.setLatch (s.setAnswers as) l .x).record (.pin l v .fail)))
  | write_ok {mode : Mode} {ops : List MicroOp} {s t : State} {as : List Ans} (h : s.answers = .ok :: as)
      (run : Runs ops (State.record (s.setAnswers as) (.bus s.fb mode .ok)) t) : Runs (.write mode :: ops) s t
  | write_fail_wait {mode : Mode} {ops : List MicroOp} {s : State} (h : s.answers = [.fail]) :
      Runs (.write mode :: ops) s (suspend [.cleanUp] (State.record (s.setAnswers []) (.bus s.fb mode .fail)))
  | write_fail {mode : Mode} {ops : List MicroOp} {s : State} {r : Ans} {as : List Ans} (h : s.answers = .fail :: r :: as) :
      Runs (.write mode :: ops) s
        (raise .bus ((State.setLatch (State.record (s.setAnswers as) (.bus s.fb mode .fail)) .cs
          (latchAfter true r)).record (.pin .cs true r)))
  | cleanUp_wait {ops : List MicroOp} {s : State} (h : s.answers = []) : Runs (.cleanUp :: ops) s (suspend [.cleanUp] s)
  | cleanUp {ops : List MicroOp} {s : State} {r : Ans} {as : List Ans} (h : s.answers = r :: as) :
      Runs (.cleanUp :: ops) s
        (raise .bus ((State.setLatch (s.setAnswers as) .cs (latchAfter true r)).record (.pin .cs true r)))

/-- `run` does one of the things `Runs` lists. -/
theorem runs_run (ops : List MicroOp) (s : State) : Runs ops s (run ops s) := by
  induction ops generalizing s with
  | nil => exact .nil s
  | cons op ops ih =>
    cases op with
    | build f => exact .build (ih _)
    | drive l v =>
      match h : s.answers with
      | [] => rw [run_drive_waits h]; exact .wait h (by simp) (by simp)
      | .ok :: as => rw [run_drive_ok h]; exact .drive_ok h (ih _)
      | .fail :: as => rw [run_drive_fail h]; exact .drive_fail h
    | write mode =>
      match h : s.answers with
      | [] => rw [run_write_waits h]; exact .wait h (by simp) (by simp)
      | .ok :: as => rw [run_write_ok h]; exact .write_ok h (ih _)
      | [.fail] => rw [run_write_fail h, cleanUp_waits rfl]; exact .write_fail_wait h
      | .fail :: r :: as => rw [run_write_fail h, cleanUp_answers (r := r) (as := as) rfl]; exact .write_fail h
    | cleanUp =>
      match h : s.answers with
      | [] => rw [run_cleanUp, cleanUp_waits h]; exact .cleanUp_wait h
      | r :: as => rw [run_cleanUp, cleanUp_answers h]; exact .cleanUp h

/-- What running a step list never writes (R27): the cache, the parameter, the inputs of caller and reset, the operation. -/
theorem Runs.frame {ops : List MicroOp} {s t : State} (h : Runs ops s t) :
    t.g = s.g ∧ t.order = s.order ∧ t.rst = s.rst ∧ t.cmds = s.cmds ∧ t.op = s.op := by
  induction h with
  | build _ ih => simpa using ih
  | drive_ok _ _ ih => simpa using ih
  | write_ok _ _ ih => simpa using ih
  | _ => simp

/-- Running only appends to the trace (R15). -/
theorem Runs.trace {ops : List MicroOp} {s t : State} (h : Runs ops s t) : ∃ es, t.trace = s.trace ++ es := by
  induction h with
  | build _ ih => simpa using ih
  | drive_ok _ _ ih => obtain ⟨es, h⟩ := ih; exact ⟨_, by simpa using h⟩
  | write_ok _ _ ih => obtain ⟨es, h⟩ := ih; exact ⟨_, by simpa using h⟩
  | wait => exact ⟨[], by simp⟩
  | cleanUp_wait => exact ⟨[], by simp⟩
  | _ => exact ⟨_, by simp; rfl⟩

/-- Running takes answers from the front of what the environment has given (R113). -/
theorem Runs.answers {ops : List MicroOp} {s t : State} (h : Runs ops s t) : t.answers <:+ s.answers := by
  induction h with
  | nil s => simp
  | build _ ih => simpa using ih
  | drive_ok h _ ih => rw [h]; exact ih.trans (by simp)
  | write_ok h _ ih => rw [h]; exact ih.trans (by simp)
  | @write_fail _ _ _ r _ h => rw [h]; exact ⟨[.fail, r], by simp⟩
  | wait h => simp
  | cleanUp_wait h => simp
  | write_fail_wait h => simp
  | drive_fail h => rw [h]; simp
  | cleanUp h => rw [h]; simp

/-- How a run ends: it returned, it raised, or it waits with a position and no answer left (R16, R113). -/
theorem Runs.end {ops : List MicroOp} {s t : State} (h : Runs ops s t) :
    (t.ph = .ready ∧ t.todo = [] ∧ t.flt = s.flt ∧ t.res = .ok) ∨
    (t.ph = .faulted ∧ t.todo = [] ∧ ∃ x, t.flt = raisedFault s.flt x ∧ t.res = fatalOf x) ∨
    (t.ph = s.ph ∧ t.todo ≠ [] ∧ t.answers = [] ∧ t.flt = s.flt ∧ t.res = s.res) := by
  induction h with
  | nil s => exact .inl (by simp)
  | wait h => exact .inr (.inr (by simp [h]))
  | cleanUp_wait h => exact .inr (.inr (by simp [h]))
  | write_fail_wait h => exact .inr (.inr (by simp))
  | build _ ih => simpa using ih
  | drive_ok _ _ ih => simpa using ih
  | write_ok _ _ ih => simpa using ih
  | drive_fail => exact .inr (.inl ⟨by simp, by simp, .pin, by simp⟩)
  | write_fail => exact .inr (.inl ⟨by simp, by simp, .bus, by simp⟩)
  | cleanUp => exact .inr (.inl ⟨by simp, by simp, .bus, by simp⟩)

/-- `Runs.frame` of `run`. -/
theorem run_frame (ops : List MicroOp) (s : State) :
    (run ops s).g = s.g ∧ (run ops s).order = s.order ∧ (run ops s).rst = s.rst ∧ (run ops s).cmds = s.cmds ∧
      (run ops s).op = s.op := (runs_run ops s).frame

/-- A whole `MemWrite` whose six answers are `ok`, for every ADDR_DRIVE_ORDER (R119, R121). -/
theorem run_memWrite_ok {p : Pattern} {f : Frame} {mode : Mode} {rest : List MicroOp} {s : State} {as : List Ans}
    (h : s.answers = .ok :: .ok :: .ok :: .ok :: .ok :: .ok :: as) :
    run (memWrite s.order p f mode ++ rest) s =
      run rest { s with
        cs := .high
        a0 := levelOf p.l0
        a1 := levelOf p.l1
        a2 := levelOf p.l2
        fb := f
        trace := s.trace ++ ((driveLines s.order).map fun l => Event.pin l (p.at l) .ok) ++
          [.pin .cs false .ok, .bus f mode .ok, .pin .cs true .ok]
        answers := as } := by
  obtain ⟨g, cs, a0, a1, a2, fb, ph, flt, res, trace, op, todo, order, rst, cmds, answers⟩ := s
  subst h
  cases order <;>
    simp [memWrite, assertAddr, driveLines, emitFrame, framedTransfer, run, drivePin, busWrite, env, State.setAnswers, State.setLatch,
      State.record, State.buildFrame, latchAfter, levelOf, Pattern.at]

/-- What a step list leaves when every answer it takes is `ok`, before its return. -/
def cleanRun : List MicroOp → State → State
  | [], s => s
  | .drive l v :: rest, s => cleanRun rest (((s.setAnswers s.answers.tail).setLatch l (levelOf v)).record (.pin l v .ok))
  | .build f :: rest, s => cleanRun rest (s.buildFrame f)
  | .write mode :: rest, s => cleanRun rest ((s.setAnswers s.answers.tail).record (.bus s.fb mode .ok))
  | .cleanUp :: _, s => s

/-- A run that returns met only `ok`: its end is the clean end (R120, R121). -/
theorem Runs.ready {ops : List MicroOp} {s t : State} (h : Runs ops s t) (hs : s.ph ≠ .ready) (ht : t.ph = .ready) :
    t = complete (cleanRun ops s) := by
  induction h with
  | nil s => rfl
  | build _ ih => exact ih (by simpa using hs) ht
  | drive_ok h _ ih => rw [ih (by simpa using hs) ht]; simp [cleanRun, h]
  | write_ok h _ ih => rw [ih (by simpa using hs) ht]; simp [cleanRun, h]
  | wait h => exact absurd ht (by simpa using hs)
  | write_fail_wait h => exact absurd ht (by simpa using hs)
  | cleanUp_wait h => exact absurd ht (by simpa using hs)
  | _ => simp at ht

/-- The clean end of one `MemWrite`, for every ADDR_DRIVE_ORDER (R119). -/
theorem cleanRun_memWrite (p : Pattern) (f : Frame) (mode : Mode) (s : State) :
    cleanRun (memWrite s.order p f mode) s =
      { s with
        cs := .high
        a0 := levelOf p.l0
        a1 := levelOf p.l1
        a2 := levelOf p.l2
        fb := f
        trace := s.trace ++ ((driveLines s.order).map fun l => Event.pin l (p.at l) .ok) ++
          [.pin .cs false .ok, .bus f mode .ok, .pin .cs true .ok]
        answers := s.answers.drop 6 } := by
  obtain ⟨g, cs, a0, a1, a2, fb, ph, flt, res, trace, op, todo, order, rst, cmds, answers⟩ := s
  cases order <;>
    simp [memWrite, assertAddr, driveLines, emitFrame, framedTransfer, cleanRun, State.setAnswers, State.setLatch,
      State.record, State.buildFrame, levelOf, Pattern.at, ← List.drop_one]

/-- A run that raises: what it appended ends in its `RET`, and the cause is `BUS` exactly when a bus write was answered `fail`
(R134, R138, R139). A run that starts at the clean-up drive has had its failed bus write before. -/
theorem Runs.faulted {ops : List MicroOp} {s t : State} (h : Runs ops s t) (hs : s.ph ≠ .faulted) (ht : t.ph = .faulted) :
    ∃ x es, t.trace = s.trace ++ es ++ [.ret s.op (fatalOf x)] ∧ t.res = fatalOf x ∧ t.flt = raisedFault s.flt x ∧
      (x = .pin → ∀ f mode, Event.bus f mode .fail ∉ es) ∧
      (x = .bus → (∃ f mode, Event.bus f mode .fail ∈ es) ∨ MicroOp.cleanUp ∈ ops) := by
  induction h with
  | nil s => simp at ht
  | wait h => exact absurd ht (by simpa using hs)
  | write_fail_wait h => exact absurd ht (by simpa using hs)
  | cleanUp_wait h => exact absurd ht (by simpa using hs)
  | build _ ih =>
    obtain ⟨x, es, h1, h2, h3, h4, h5⟩ := ih (by simpa using hs) ht
    exact ⟨x, es, by simpa using h1, h2, by simpa using h3, h4, fun hx => (h5 hx).imp id (List.mem_cons_of_mem _)⟩
  | @drive_ok l v ops s t as h _ ih =>
    obtain ⟨x, es, h1, h2, h3, h4, h5⟩ := ih (by simpa using hs) ht
    refine ⟨x, .pin l v .ok :: es, by simpa using h1, h2, by simpa using h3, fun hx => by simpa using h4 hx, fun hx => ?_⟩
    exact (h5 hx).imp (fun ⟨f, m, hm⟩ => ⟨f, m, List.mem_cons_of_mem _ hm⟩) (List.mem_cons_of_mem _)
  | @write_ok mode ops s t as h _ ih =>
    obtain ⟨x, es, h1, h2, h3, h4, h5⟩ := ih (by simpa using hs) ht
    refine ⟨x, .bus s.fb mode .ok :: es, by simpa using h1, h2, by simpa using h3, fun hx => by simpa using h4 hx, fun hx => ?_⟩
    exact (h5 hx).imp (fun ⟨f, m, hm⟩ => ⟨f, m, List.mem_cons_of_mem _ hm⟩) (List.mem_cons_of_mem _)
  | @drive_fail l v ops s as h =>
    exact ⟨.pin, [.pin l v .fail], by simp, by simp, by simp, by simp, by simp⟩
  | @write_fail mode ops s r as h =>
    exact ⟨.bus, [.bus s.fb mode .fail, .pin .cs true r], by simp, by simp, by simp, by simp, fun _ => .inl ⟨_, _, .head _⟩⟩
  | @cleanUp ops s r as h =>
    exact ⟨.bus, [.pin .cs true r], by simp, by simp, by simp, by simp, by simp⟩

end Sys2Proof.Machine
end

