-- ==== Sys2Proof/Laws/Exec.lean ====
section
/-! SUPPORT. What an instruction and a step can do, said once: a command runs its row of R121, a frame row runs its emission
or nothing, a step is one of six moves. And what one more event does to the readings of a trace in Safety. -/

namespace Sys2Proof.Machine

/-! ### Instructions -/

/-- A command in `READY` is the step list of its row of the table of R121 (R119, R120). -/
theorem exec_row {i : Instr} {r : CommandRow} {s : State} (h : commandRow i s = some r) (hr : s.ph = .ready) :
    exec i s = .next (run (memWrite s.order r.pattern r.frame r.mode) { s with ph := .busy, op := r.op, g := r.g }) := by
  cases i <;> simp only [commandRow, Option.some.injEq, reduceCtorEq] at h <;> subst h <;>
    simp only [exec, execSetg, execGhi, execGlo, execCvraw, execCvpol, whenReady, cmdReady, hr, gateWrite, beq_self_eq_true,
      if_true, gate_setGate_same, gateFrame, cvPolFrame, setGate_order, begin_order]
  case setg a m => cases a <;> rfl
  case ghi a m => cases a <;> rfl
  case glo a m => cases a <;> rfl
  case cvraw => rfl
  case cvpol => rfl

/-- Every command has a row. -/
theorem commandRow_isSome {i : Instr} (h : i.isCommand = true) (s : State) : ∃ r, commandRow i s = some r := by
  cases i <;> simp [Instr.isCommand] at h <;> simp [commandRow]

/-- The row of a command depends on the cache alone. -/
theorem commandRow_congr (i : Instr) {s t : State} (h : s.g = t.g) : commandRow i s = commandRow i t := by
  cases i <;> simp only [commandRow] <;> rename_i a _ <;> cases a <;> simp [State.gate, State.setGate, h]

/-- The operation of a row is that of a command, its mode the operation's, its frame one the operation may send (R121). -/
theorem commandRow_legal {i : Instr} {s : State} {r : CommandRow} (h : commandRow i s = some r) :
    r.op ≠ .init ∧ r.op ≠ .illegal ∧ r.mode = modeOf r.op ∧ legalWrite r.op r.frame r.mode = true := by
  cases i <;> simp only [commandRow, Option.some.injEq, reduceCtorEq] at h <;> subst h <;>
    simp [modeOf, legalWrite, gateFrame, cvPolFrame]
  rename_i c ch v
  simp only [cvRawFrame, cvRawBase]
  generalize v.extractLsb' 12 4 = a
  generalize v.extractLsb' 0 4 = b
  revert a b
  cases ch <;> decide

/-- What the decoder reads from a word is a command (R53). -/
theorem decodeCommand_isCommand {w : Word} {i : Instr} (h : decodeCommand w = some i) : i.isCommand = true := by
  simp only [decodeCommand] at h
  split at h <;> simp at h
  subst h
  rename_i hh
  simp only [readCommand] at hh
  split_ifs at hh <;> simp only [readSetg, readGhi, readGlo, readCvraw, readCvpol] at hh <;> split at hh <;>
    (try split_ifs at hh) <;> simp at hh <;> subst hh <;> rfl

/-- A frame row runs its emission and what is left of the operation, or changes nothing (R54 to R57, log 9). -/
theorem exec_frame {i : Instr} (h : i.isCommand = false) (s : State) :
    exec i s = .next s ∨
      running s = true ∧ exec i s = .next (run (emitFrame (frameOfWord (encode i)) (modeOf s.op) ++ s.todo) s) := by
  cases i <;> simp [Instr.isCommand] at h <;>
    simp only [exec, execFrameGate, execFrameCvraw, execFrameCvpol, emission, encode, frameOfWord_toWord] <;> split <;> simp_all

/-! ### Steps -/

/-- Everything a step can do (R16, R21, R62, R80, R120, R137, R160): hold reset, begin `INIT`, go on, rest, reject, or run the
command that is taken. -/
theorem step_cases {s t : State} (h : step s = .next t) :
    (s.rst = true ∧ t = hardReset s) ∨
    (s.rst = false ∧ s.ph = .unbuilt ∧ t = startInit s) ∨
    (s.rst = false ∧ running s = true ∧ t = resume s) ∨
    (s.rst = false ∧ (s.ph = .faulted ∨ s.ph = .ready ∧ s.cmds = []) ∧ t = s) ∨
    (s.rst = false ∧ s.ph = .ready ∧ (∃ w ws, s.cmds = w :: ws ∧ decodeCommand w = none) ∧ t = reject (takeCommand s)) ∨
    (s.rst = false ∧ s.ph = .ready ∧ ∃ w ws i r, s.cmds = w :: ws ∧ decodeCommand w = some i ∧ commandRow i s = some r ∧
      t = run (memWrite s.order r.pattern r.frame r.mode) { s with ph := .busy, op := r.op, g := r.g, cmds := ws }) := by
  rcases Bool.eq_false_or_eq_true s.rst with hr | hr
  · simp [step, nextMove, hr] at h
    exact .inl ⟨hr, h.symm⟩
  · right
    match hp : s.ph with
    | .unbuilt =>
      simp [step, nextMove, hr, hp] at h
      exact .inl ⟨hr, rfl, h.symm⟩
    | .init =>
      simp [step, nextMove, hr, hp] at h
      exact .inr (.inl ⟨hr, by simp [running, hp], h.symm⟩)
    | .busy =>
      simp [step, nextMove, hr, hp] at h
      exact .inr (.inl ⟨hr, by simp [running, hp], h.symm⟩)
    | .faulted =>
      simp [step, nextMove, hr, hp] at h
      exact .inr (.inr (.inl ⟨hr, .inl rfl, h.symm⟩))
    | .ready =>
      match hc : s.cmds with
      | [] =>
        simp [step, nextMove, hr, hp, hc] at h
        exact .inr (.inr (.inl ⟨hr, .inr ⟨rfl, rfl⟩, h.symm⟩))
      | w :: ws =>
        match hd : decodeCommand w with
        | none =>
          simp [step, nextMove, hr, hp, hc, hd] at h
          exact .inr (.inr (.inr (.inl ⟨hr, rfl, ⟨w, ws, rfl, hd⟩, h.symm⟩)))
        | some i =>
          simp [step, nextMove, hr, hp, hc, hd] at h
          obtain ⟨r, hrow⟩ := commandRow_isSome (decodeCommand_isCommand hd) s
          rw [exec_row (r := r) (by rw [← hrow]; exact commandRow_congr i rfl) (by simpa [takeCommand] using hp)] at h
          simp [takeCommand, hc] at h
          exact .inr (.inr (.inr (.inr ⟨hr, rfl, w, ws, i, r, rfl, hd, hrow, h.symm⟩)))

/-! ### One more event (R13, R18, R123) -/

theorem latchOfTrace_append (l : Line) (t : List Event) (e : Event) :
    latchOfTrace l (t ++ [e]) = latchStep l (latchOfTrace l t) e := by
  simp [latchOfTrace]

theorem resultOfTrace_append (t : List Event) (e : Event) : resultOfTrace (t ++ [e]) = resultStep (resultOfTrace t) e := by
  simp [resultOfTrace]

theorem wireOfTrace_append (t : List Event) (e : Event) :
    wireOfTrace (t ++ [e]) = (wireOfTrace t).bind fun w => wireStep w e := by
  simp [wireOfTrace, List.foldlM_append]

end Sys2Proof.Machine
end

