-- ==== Sys2Proof/Laws/PerInstr.lean ====
section
/-! SUPPORT. The family `FitsRow`: the encoding of an instruction has the fixed bits of its row of spec/opcode_table.json
(30_encoding.md R52 for the commands, R60 for the frames). -/

namespace Sys2Proof.Laws.FitsRow

/-- `mask` of the instruction's row. -/
def rowMask : Instr → Word
  | .setg _ _ => 0xF9FFFF00
  | .ghi _ _ => 0xF83FFFFF
  | .glo _ _ => 0xF83FFFFF
  | .cvraw _ _ _ => 0xF03F0000
  | .cvpol _ _ => 0xF1FFFF00
  | .frameGate _ => 0xFFFF00FF
  | .frameCvraw _ _ => 0x80000FFF
  | .frameCvpol _ => 0xFFFF00FF

/-- `match` of the instruction's row. -/
def rowMatch : Instr → Word
  | .setg _ _ => 0x10000000
  | .ghi _ _ => 0x20000000
  | .glo _ _ => 0x30000000
  | .cvraw _ _ _ => 0x40000000
  | .cvpol _ _ => 0x50000000
  | .frameGate _ => 0x04000000
  | .frameCvraw _ _ => 0x00000000
  | .frameCvpol _ => 0x14000000

/-- The encoding has the row's fixed bits. -/
def Statement (i : Instr) : Prop := encode i &&& rowMask i = rowMatch i

theorem setg (a : GateAddr) (m : Byte) : Statement (.setg a m) := by
  unfold Statement
  apply BitVec.eq_of_getElem_eq
  intro j hj
  cases a <;> simp only [encode, rowMask, rowMatch, packCommand, byteData, gateOrdinal, BitVec.getElem_and,
    BitVec.getElem_append] <;> interval_cases j <;> simp

theorem ghi (a : GateAddr) (ch : GateChan) : Statement (.ghi a ch) := by
  unfold Statement
  cases a <;> cases ch <;> decide

theorem glo (a : GateAddr) (ch : GateChan) : Statement (.glo a ch) := by
  unfold Statement
  cases a <;> cases ch <;> decide

theorem cvraw (c : CvAddr) (ch : CvChan) (v : BitVec 16) : Statement (.cvraw c ch v) := by
  have h : ∀ a b : BitVec 3, packCommand 4 a b v &&& 0xF03F0000 = 0x40000000 := by
    intro a b
    apply BitVec.eq_of_getElem_eq
    intro j hj
    simp only [packCommand, BitVec.getElem_and, BitVec.getElem_append]
    interval_cases j <;> simp
  exact h _ _

theorem cvpol (c : CvAddr) (p : Byte) : Statement (.cvpol c p) := by
  have h : ∀ a : BitVec 3, packCommand 5 a 0 (byteData p) &&& 0xF1FFFF00 = 0x50000000 := by
    intro a
    apply BitVec.eq_of_getElem_eq
    intro j hj
    simp only [packCommand, byteData, BitVec.getElem_and, BitVec.getElem_append]
    interval_cases j <;> simp
  exact h _

theorem frameGate (g : Byte) : Statement (.frameGate g) := by
  unfold Statement
  apply BitVec.eq_of_getElem_eq
  intro j hj
  simp only [encode, rowMask, rowMatch, Frame.toWord, gateFrame, BitVec.getElem_and, BitVec.getElem_append]
  interval_cases j <;> simp

theorem frameCvraw (ch : CvChan) (v : BitVec 16) : Statement (.frameCvraw ch v) := by
  unfold Statement
  apply BitVec.eq_of_getElem_eq
  intro j hj
  cases ch <;> simp only [encode, rowMask, rowMatch, Frame.toWord, cvRawFrame, cvCode, cvRawBase, BitVec.getElem_and,
    BitVec.getElem_append] <;> interval_cases j <;> simp

theorem frameCvpol (p : Byte) : Statement (.frameCvpol p) := by
  unfold Statement
  apply BitVec.eq_of_getElem_eq
  intro j hj
  simp only [encode, rowMask, rowMatch, Frame.toWord, cvPolFrame, BitVec.getElem_and, BitVec.getElem_append]
  interval_cases j <;> simp

end Sys2Proof.Laws.FitsRow
end

