-- ==== Sys2Proof/Tests/Slice0.lean ====
section
/-! SUPPORT. The model's own tests: words and results that 95_test_vectors.md writes out, the ill-formed command lines, and
for every obligation with hypotheses a concrete state and operands that meet them together (theorems `witness_...`). -/

namespace Sys2Proof.Tests

open Sys2Proof.Machine Host

/-! ### Decoding: words from 95_test_vectors.md and from the rows of 30_encoding.md R52 -/

theorem test_decode_setg_G3 : decodeCommand 0x140000A5 = some (.setg .gt2 0xA5) := by decide

theorem test_decode_setg_G4 : decodeCommand 0x160000A5 = some (.setg .gt3 0xA5) := by decide

theorem test_decode_ghi_N8 : decodeCommand 0x21C00000 = some (.ghi .gt0 .channel8) := by decide

theorem test_decode_ghi_H5 : decodeCommand 0x24800000 = some (.ghi .gt2 .channel3) := by decide

theorem test_decode_glo_H2 : decodeCommand 0x30400000 = some (.glo .gt0 .channel2) := by decide

theorem test_decode_glo_N8 : decodeCommand 0x37C00000 = some (.glo .gt3 .channel8) := by decide

theorem test_decode_cvraw_V4 : decodeCommand 0x42000ABC = some (.cvraw .cv1 .channel1 0x0ABC) := by decide

theorem test_decode_cvraw_O2 : decodeCommand 0x4A40FFFF = some (.cvraw .cv5 .channel2 0xFFFF) := by decide

theorem test_decode_cvpol_V6 : decodeCommand 0x5800005A = some (.cvpol .cv4 0x5A) := by decide

theorem test_decode_cvpol_L4 : decodeCommand 0x5E0000FF = some (.cvpol .cv7 0xFF) := by decide

/-! The illegal words X1 to X12, with the class of R62. -/

theorem test_illegal_words :
    (readCommand 0x00000000 matches .error .opcode) ∧
    (readCommand 0x60000000 matches .error .opcode) ∧
    (readCommand 0xF0000000 matches .error .opcode) ∧
    (readCommand 0x28000000 matches .error .gateAddress) ∧
    (readCommand 0x40000100 matches .error .cvAddressZero) ∧
    (readCommand 0x50000000 matches .error .cvAddressZero) ∧
    (readCommand 0x10010000 matches .error .zeroField) ∧
    (readCommand 0x10400000 matches .error .chanField) ∧
    (readCommand 0x10000100 matches .error .dataField) ∧
    (readCommand 0x20000001 matches .error .dataField) ∧
    (readCommand 0x52400000 matches .error .chanField) ∧
    (readCommand 0x5200015A matches .error .dataField) := by decide

/-! Frames: the bytes of G1, V4, V5, V6, and O4, which has two readings (R60, R170). -/

theorem test_frame_gate_G1 : decodeFrame 0x0400A500 = some (.frameGate 0xA5) := by decide

theorem test_frame_cvraw_V4 : decodeFrame 0x00ABC000 = some (.frameCvraw .channel1 0x0ABC) := by decide

theorem test_frame_cvraw_V5 : decodeFrame 0x11000000 = some (.frameCvraw .channel8 0x1000) := by decide

theorem test_frame_cvpol_V6 : decodeFrame 0x14005A00 = some (.frameCvpol 0x5A) := by decide

theorem test_frame_O4_has_two_readings :
    frameReadings 0x0400F000 = [.frameGate 0xF0, .frameCvraw .channel1 0x400F] := by decide

theorem test_frame_none : frameReadings 0x80000000 = [] ∧ frameReadings 0x04000001 = [] := by decide

/-! ### Encoding -/

theorem test_encode_words :
    encode (.setg .gt1 0xA5) = 0x120000A5 ∧ encode (.ghi .gt1 .channel5) = 0x23000000 ∧
    encode (.glo .gt2 .channel8) = 0x35C00000 ∧ encode (.cvraw .cv7 .channel6 0x0123) = 0x4F400123 ∧
    encode (.cvpol .cv3 0x0F) = 0x5600000F ∧ encode (.frameGate 0xA5) = 0x0400A500 ∧
    encode (.frameCvraw .channel8 0x1000) = 0x11000000 ∧ encode (.frameCvpol 0x5A) = 0x14005A00 := by decide

/-! ### WellFormed: one ill-formed line for each check of R66, and the lines at the ends of the ranges -/

theorem test_refuses_gate_address :
    (CommandLine.instr (.setg 4 0)).isNone = true ∧ (CommandLine.wellFormed (.setg 4 0)) = false := by decide

theorem test_refuses_mask :
    (CommandLine.instr (.setg 0 256)).isNone = true ∧ (CommandLine.wellFormed (.setg 0 256)) = false := by decide

theorem test_refuses_ghi_address :
    (CommandLine.instr (.ghi 4 1)).isNone = true ∧ (CommandLine.wellFormed (.ghi 4 1)) = false := by decide

theorem test_refuses_gate_channel_0 :
    (CommandLine.instr (.ghi 0 0)).isNone = true ∧ (CommandLine.wellFormed (.ghi 0 0)) = false := by decide

theorem test_refuses_gate_channel_9 :
    (CommandLine.instr (.glo 0 9)).isNone = true ∧ (CommandLine.wellFormed (.glo 0 9)) = false := by decide

theorem test_refuses_cv_address_0 :
    (CommandLine.instr (.cvraw 0 1 0)).isNone = true ∧ (CommandLine.wellFormed (.cvraw 0 1 0)) = false := by decide

theorem test_refuses_cv_address_8 :
    (CommandLine.instr (.cvpol 8 0)).isNone = true ∧ (CommandLine.wellFormed (.cvpol 8 0)) = false := by decide

theorem test_refuses_cv_channel_9 :
    (CommandLine.instr (.cvraw 1 9 0)).isNone = true ∧ (CommandLine.wellFormed (.cvraw 1 9 0)) = false := by decide

theorem test_refuses_value :
    (CommandLine.instr (.cvraw 1 1 65536)).isNone = true ∧ (CommandLine.wellFormed (.cvraw 1 1 65536)) = false := by decide

theorem test_refuses_polarity :
    (CommandLine.instr (.cvpol 1 256)).isNone = true ∧ (CommandLine.wellFormed (.cvpol 1 256)) = false := by decide

theorem test_accepts_the_ends_of_the_ranges :
    CommandLine.instr (.setg 3 255) = some (.setg .gt3 0xFF) ∧ CommandLine.instr (.ghi 0 1) = some (.ghi .gt0 .channel1) ∧
    CommandLine.instr (.glo 3 8) = some (.glo .gt3 .channel8) ∧
    CommandLine.instr (.cvraw 7 8 65535) = some (.cvraw .cv7 .channel8 0xFFFF) ∧
    CommandLine.instr (.cvpol 1 0) = some (.cvpol .cv1 0x00) := by decide

/-! ### Instructions, one step each -/

/-- The next state, if there is one. -/
def after : Outcome State Fault Refusal → Option State
  | .next t => some t
  | .fault _ => none
  | .refused _ => none

/-- The start state of 95_test_vectors.md (after a clean `INIT`), with an empty trace and these answers to come. -/
def start (as : List Ans) : State :=
  { State.reset with
    cs := .high, a0 := .high, a1 := .high, a2 := .low, fb := ⟨0x04, 0x00, 0x00, 0x00⟩, ph := .ready, answers := as }

/-- Six answers `ok`. -/
def six : List Ans := [.ok, .ok, .ok, .ok, .ok, .ok]

/-- What the tables of 95_test_vectors.md give of a step: `G`, the lines, the frame and the phase. -/
def seen (o : Outcome State Fault Refusal) : Option (GateCache × Level × Level × Level × Frame × Phase) :=
  (after o).map fun t => (t.g, t.a0, t.a1, t.a2, t.fb, t.ph)

/-- G3. -/
theorem test_setg_G3 :
    seen (exec (.setg .gt2 0xA5) (start six)) =
      some (⟨0, 0, 0xA5, 0⟩, .low, .high, .low, ⟨0x04, 0x00, 0xA5, 0x00⟩, .ready) := by decide

/-- H5: the neighbours are untouched. -/
theorem test_ghi_H5 :
    seen (exec (.ghi .gt2 .channel3) { start six with g := ⟨0x11, 0x22, 0x33, 0x44⟩ }) =
      some (⟨0x11, 0x22, 0x37, 0x44⟩, .low, .high, .low, ⟨0x04, 0x00, 0x37, 0x00⟩, .ready) := by decide

/-- Row N = 8 of section 2.2. -/
theorem test_ghi_N8 :
    seen (exec (.ghi .gt0 .channel8) (start six)) =
      some (⟨0x80, 0, 0, 0⟩, .low, .low, .low, ⟨0x04, 0x00, 0x80, 0x00⟩, .ready) := by decide

/-- H3: the top bit. -/
theorem test_glo_H3 :
    seen (exec (.glo .gt2 .channel8) { start six with g := ⟨0, 0, 0xFF, 0⟩ }) =
      some (⟨0, 0, 0x7F, 0⟩, .low, .high, .low, ⟨0x04, 0x00, 0x7F, 0x00⟩, .ready) := by decide

/-- V2: a bit that is clear stays clear, and the frame is still sent. -/
theorem test_glo_V2 :
    (after (exec (.glo .gt0 .channel2) { start six with g := ⟨0x05, 0, 0, 0⟩ })).map (fun t => (t.g.g0, t.trace.length)) =
      some (0x05, 7) := by decide

/-- V4. -/
theorem test_cvraw_V4 :
    seen (exec (.cvraw .cv1 .channel1 0x0ABC) (start six)) =
      some (⟨0, 0, 0, 0⟩, .high, .low, .low, ⟨0x00, 0xAB, 0xC0, 0x00⟩, .ready) := by decide

/-- O2: all sixteen bits of the value are used. -/
theorem test_cvraw_O2 :
    seen (exec (.cvraw .cv5 .channel2 0xFFFF) (start six)) =
      some (⟨0, 0, 0, 0⟩, .high, .low, .high, ⟨0x2F, 0xFF, 0xF0, 0x00⟩, .ready) := by decide

/-- V6, with its seven events, the bus write in mode `BLOCK`. -/
theorem test_cvpol_V6 :
    (after (exec (.cvpol .cv4 0x5A) (start six))).map (·.trace) =
      some [.pin .a0 false .ok, .pin .a1 false .ok, .pin .a2 true .ok, .pin .cs false .ok,
        .bus ⟨0x14, 0x00, 0x5A, 0x00⟩ .block .ok, .pin .cs true .ok, .ret .cvpol .ok] := by decide

/-- F5b: the bus write and the clean-up drive both answered `fail`. -/
theorem test_setg_F5b :
    (after (exec (.setg .gt1 0xA5) (start [.ok, .ok, .ok, .ok, .fail, .fail]))).map
        (fun t => (t.g.g1, t.cs, t.ph, t.flt, t.trace.drop 4)) =
      some (0xA5, .x, .faulted, .bus,
        [.bus ⟨0x04, 0x00, 0xA5, 0x00⟩ .susp .fail, .pin .cs true .fail, .ret .setg .fatalBus]) := by decide

/-- F4, and with a `CVPOL`: chip-select low fails, the bus is not written. -/
theorem test_cvpol_F4 :
    (after (exec (.cvpol .cv1 0x00) (start [.ok, .ok, .ok, .fail]))).map
        (fun t => (t.cs, t.fb, t.ph, t.flt, t.trace.drop 3)) =
      some (.x, ⟨0x14, 0x00, 0x00, 0x00⟩, .faulted, .pin, [.pin .cs false .fail, .ret .cvpol .fatalPin]) := by decide

/-- A block in `BUSY` inside `op`, with nothing left but a frame, and three answers to come. -/
def inside (op : Op) : State := { start [.ok, .ok, .ok] with ph := .busy, op := op }

/-- The frame of G1, sent inside `GHI`. -/
theorem test_frameGate :
    (after (exec (.frameGate 0xA5) (inside .ghi))).map (fun t => (t.fb, t.ph, t.trace)) =
      some (⟨0x04, 0x00, 0xA5, 0x00⟩, .ready, [.pin .cs false .ok, .bus ⟨0x04, 0x00, 0xA5, 0x00⟩ .susp .ok,
        .pin .cs true .ok, .ret .ghi .ok]) := by decide

/-- The frame of V5. -/
theorem test_frameCvraw :
    (after (exec (.frameCvraw .channel8 0x1000) (inside .cvraw))).map (fun t => (t.fb, t.ph, t.trace.length)) =
      some (⟨0x11, 0x00, 0x00, 0x00⟩, .ready, 4) := by decide

/-- The frame of V6, in mode `BLOCK`. -/
theorem test_frameCvpol :
    (after (exec (.frameCvpol 0x5A) (inside .cvpol))).map (fun t => (t.fb, t.ph, t.trace.drop 1)) =
      some (⟨0x14, 0x00, 0x5A, 0x00⟩, .ready,
        [.bus ⟨0x14, 0x00, 0x5A, 0x00⟩ .block .ok, .pin .cs true .ok, .ret .cvpol .ok]) := by decide

/-! ### Steps -/

/-- R82: the clean `INIT` of V3 has 26 events and leaves the start state. -/
theorem test_init_V3 :
    (after (step (State.reset.setAnswers (List.replicate 25 .ok)))).map
        (fun t => (t.trace.length, { t with trace := [] } == start [])) =
      some (26, true) := by decide

/-- I3: the bus write to `Gt1` fails, 14 events. -/
theorem test_init_I3 :
    (after (step (State.reset.setAnswers (List.replicate 11 .ok ++ [.fail, .ok])))).map
        (fun t => (t.trace.length, t.flt, t.cs, t.a0, t.a1, t.a2)) =
      some (14, .bus, .high, .high, .low, .low) := by decide

/-- X5 at the command port: rejected, one event, nothing sent. -/
theorem test_reject_X5 :
    (after (step { start six with cmds := [0x40000100] })).map (fun t => (t.res, t.ph, t.trace, t.cmds)) =
      some (.rejected, .ready, [.ret .illegal .rejected], []) := by decide

/-- P5, step 2, from the command port. -/
theorem test_step_P5 :
    seen (step { start six with g := ⟨0, 0x0F, 0, 0⟩, cmds := [0x4200400F] }) =
      some (⟨0, 0x0F, 0, 0⟩, .high, .low, .low, ⟨0x04, 0x00, 0xF0, 0x00⟩, .ready) := by decide

/-! ### The host's two definitions: each row's word is decoded to the row's instruction, and the next step runs it -/

theorem test_decodeTableWord :
    decodeTableWord 32 0x120000A5 = some (.setg .gt1 0xA5) ∧
    decodeTableWord 32 0x10000000 = some (.setg .gt0 0x00) ∧
    decodeTableWord 32 0x20000000 = some (.ghi .gt0 .channel1) ∧
    decodeTableWord 32 0x30000000 = some (.glo .gt0 .channel1) ∧
    decodeTableWord 32 0x42000000 = some (.cvraw .cv1 .channel1 0x0000) ∧
    decodeTableWord 32 0x52000000 = some (.cvpol .cv1 0x00) ∧
    decodeTableWord 32 0x04000000 = some (.frameGate 0x00) ∧
    decodeTableWord 32 0x00000000 = some (.frameCvraw .channel1 0x0000) ∧
    decodeTableWord 32 0x14005A00 = some (.frameCvpol 0x5A) ∧
    decodeTableWord 32 0x14000000 = some (.frameCvpol 0x00) ∧
    decodeCommand 0x14000000 = some (.setg .gt2 0x00) ∧
    decodeTableWord 32 0xF0000000 = none := by decide

theorem test_withFetchWord_command :
    (step ((start six).withFetchWord 32 0x52000000) matches .next _) = true ∧
    nextMove (State.reset.withFetchWord 32 0x52000000) = .run (.cvpol .cv1 0x00) := by decide

theorem test_withFetchWord_frames :
    (State.reset.withFetchWord 32 0x0400A500).todo = emitFrame ⟨0x04, 0x00, 0xA5, 0x00⟩ .susp ∧
    nextMove (State.reset.withFetchWord 32 0x0400A500) = .resume ∧
    (State.reset.withFetchWord 32 0x14005A00).op = .cvpol ∧
    seen (step ((start [.ok, .ok, .ok]).withFetchWord 32 0x11000000)) =
      some (⟨0, 0, 0, 0⟩, .high, .high, .low, ⟨0x11, 0x00, 0x00, 0x00⟩, .ready) := by decide
/-! ### Witnesses: the hypotheses of each obligation can be met together -/

/-- A reachable idle block that has sent nothing: after the first drive of an `INIT` and its `RET`. -/
def idle : State :=
  { State.reset with cs := .high, ph := .ready, trace := [.pin .cs true .ok, .ret .init .ok] }

/-- A block inside a `SETG Gt0, 0xA5`, chip-select low, waiting for the answer to its bus write. -/
def midway : State :=
  { idle with
    g := ⟨0xA5, 0x00, 0x00, 0x00⟩, cs := .low, a0 := .low, a1 := .low, a2 := .low, fb := ⟨0x04, 0x00, 0xA5, 0x00⟩
    ph := .busy, op := .setg, todo := [.write .susp, .drive .cs true]
    trace := idle.trace ++ addrEvents .a012 (gatePattern .gt0) ++ [.pin .cs false .ok] }

/-- The same block after it has returned. -/
def sent : State :=
  { midway with
    cs := .high, ph := .ready, todo := []
    trace := idle.trace ++ addrEvents .a012 (gatePattern .gt0) ++ transferEvents ⟨0x04, 0x00, 0xA5, 0x00⟩ .susp ++ [.ret .setg .ok] }

/-- A block whose `INIT` has failed at its first drive. -/
def broken : State :=
  { State.reset with
    ph := .faulted, flt := .pin, res := .fatalPin, trace := [.pin .cs true .fail, .ret .init .fatalPin] }

theorem idle_inv : Inv idle where
  phase := ⟨by decide, by decide, by decide, by decide⟩
  trace := ⟨fun l => by cases l <;> rfl, rfl⟩
  wire := ⟨⟨.idle .none, rfl, rfl⟩, by simp [idle]⟩

theorem midway_inv : Inv midway where
  phase := ⟨by decide, by decide, by decide, by decide⟩
  trace := ⟨fun l => by cases l <;> rfl, rfl⟩
  wire := ⟨⟨.selected, rfl, rfl⟩, by simp [midway, idle, addrEvents, driveLines]⟩

theorem sent_inv : Inv sent where
  phase := ⟨by decide, by decide, by decide, by decide⟩
  trace := ⟨fun l => by cases l <;> rfl, rfl⟩
  wire := ⟨⟨.idle .none, rfl, rfl⟩, fun f mode r h => ⟨.setg, by
    simp [sent, idle, addrEvents, driveLines, transferEvents] at h
    obtain ⟨rfl, rfl, rfl⟩ := h
    rfl⟩⟩

theorem broken_inv : Inv broken where
  phase := ⟨by decide, by decide, by decide, by decide⟩
  trace := ⟨fun l => by cases l <;> rfl, rfl⟩
  wire := ⟨⟨.dead, rfl, rfl⟩, by simp [broken]⟩

theorem witness_DecodeOfEncodeIsTheCommand :
    Instr.isCommand (.cvraw .cv7 .channel8 0xFFFF) = true ∧ Instr.isCommand (.setg .gt0 0x00) = true := ⟨rfl, rfl⟩

theorem witness_EncodeOfDecodeIsTheWord : decodeCommand 0x4FC0FFFF = some (.cvraw .cv7 .channel8 0xFFFF) := by decide

theorem witness_LineSpellsACommandExactlyWhenInRange :
    CommandLine.wellFormed (.setg 4 0) = false ∧ CommandLine.instr (.cvpol 7 255) = some (.cvpol .cv7 0xFF) := by decide

theorem witness_FrameIsAmongTheReadingsOfItsNumber :
    Instr.isCommand (.frameGate 0xFF) = false ∧ Instr.frameCvraw .channel1 0x400F ∈ frameReadings 0x0400F000 := by decide

theorem witness_FramesOfInRangeValuesAreDisjoint : (0x0FFF : BitVec 16) ≤ 0x0FFF := by decide

theorem witness_CvRawFrameDeterminesChannelAndValue :
    cvRawFrame .channel8 0xFFFF = ⟨0x1F, 0xFF, 0xF0, 0x00⟩ ∧ cvRawFrame .channel8 0xFFFF = cvRawFrame .channel8 0xFFFF := by decide

theorem witness_CvRawFrameIsTheMaskAndShiftFormula : (0x0FFF : BitVec 16) ≤ 0x0FFF ∧ ¬(0x1000 : BitVec 16) ≤ 0x0FFF := by decide

theorem witness_GhiAndGloChangeOneBit :
    (start six).ph = .ready ∧ 7 < 8 ∧ (∃ t, exec (.ghi .gt3 .channel8) (start six) = .next t) ∧
    (∃ t, exec (.glo .gt0 .channel1) (start six) = .next t) := ⟨rfl, by decide, ⟨_, rfl⟩, ⟨_, rfl⟩⟩

theorem witness_DrivePinSetsItsLatchAndRecords :
    (start []).answers = [] ∧ (start [.ok]).answers = [.ok] ∧ (start [.fail, .ok]).answers = [.fail, .ok] := ⟨rfl, rfl, rfl⟩

theorem witness_BusWriteRecordsTheFrameAndNothingElse :
    (start []).answers = [] ∧ (start [.fail]).answers = [.fail] := ⟨rfl, rfl⟩

theorem witness_BuildFrameWritesOnlyTheFrameRegister : ∀ f, MicroOp.build f ∉ framedTransfer .susp := by
  simp [framedTransfer]

theorem witness_AssertAddrDrivesAllThreeLines : (start six).answers = .ok :: .ok :: .ok :: [.ok, .ok, .ok] := rfl

theorem witness_AssertAddrStopsAtTheFirstFailure :
    (driveLines .a201 = [] ++ .a2 :: [.a0, .a1] ∧ (start [.fail]).flt = .none ∧
      (start [.fail]).answers = ([] : List Line).map (fun _ => Ans.ok) ++ .fail :: []) ∧
    (driveLines .a201 = [.a2, .a0] ++ .a1 :: [] ∧
      (start [.ok, .ok, .fail, .ok]).answers = [Line.a2, Line.a0].map (fun _ => Ans.ok) ++ .fail :: [.ok]) := by decide

theorem witness_FramedTransferTakesOneOfFourPaths :
    (start []).flt = .none ∧ (start [.ok, .ok, .ok]).answers = .ok :: .ok :: .ok :: [] ∧ (start [.fail]).answers = .fail :: [] ∧
    (start [.ok, .fail, .fail]).answers = .ok :: .fail :: .fail :: [] ∧
    (start [.ok, .ok, .fail]).answers = .ok :: .ok :: .fail :: [] := ⟨rfl, rfl, rfl, rfl, rfl⟩

theorem witness_RaiseEntersTheFault : (start []).flt = .none ∧ broken.flt ≠ .none := by decide

theorem witness_SetgReplacesTheMaskAndSendsIt : (start six).ph = .ready ∧ (start six).answers = .ok :: .ok :: .ok :: .ok :: .ok :: .ok :: [] :=
  ⟨rfl, rfl⟩

theorem witness_GhiSetsTheBitAndSendsTheMask :
    sent.ph = .ready ∧ (sent.setAnswers (six ++ [.fail])).answers = .ok :: .ok :: .ok :: .ok :: .ok :: .ok :: [.fail] := ⟨rfl, rfl⟩

theorem witness_GloClearsTheBitAndSendsTheMask :
    (sent.setAnswers six).ph = .ready ∧ (sent.setAnswers six).answers = .ok :: .ok :: .ok :: .ok :: .ok :: .ok :: [] := ⟨rfl, rfl⟩

theorem witness_CvrawSendsTheRawFrame :
    (idle.setAnswers six).ph = .ready ∧ (idle.setAnswers six).answers = .ok :: .ok :: .ok :: .ok :: .ok :: .ok :: [] := ⟨rfl, rfl⟩

theorem witness_CvpolSendsThePolarityFrame :
    (start six).ph = .ready ∧ (start six).answers = .ok :: .ok :: .ok :: .ok :: .ok :: .ok :: [] := ⟨rfl, rfl⟩

theorem witness_GateFrameIsEmittedInsideItsOperation :
    ((inside .glo).ph = .busy ∧ (inside .glo).op ∈ [Op.setg, .ghi, .glo] ∧ (inside .glo).todo = [] ∧
      (inside .glo).answers = .ok :: .ok :: .ok :: []) ∧
    { inside .init with ph := .init }.ph = .init ∧ (inside .init).op = .init := by decide

theorem witness_RawFrameIsEmittedInsideCvraw :
    (inside .cvraw).ph = .busy ∧ (inside .cvraw).op = .cvraw ∧ (inside .cvraw).todo = [] ∧
    (inside .cvraw).answers = .ok :: .ok :: .ok :: [] := ⟨rfl, rfl, rfl, rfl⟩

theorem witness_PolarityFrameIsEmittedInsideCvpol :
    (inside .cvpol).ph = .busy ∧ (inside .cvpol).op = .cvpol ∧ (inside .cvpol).todo = [] ∧
    (inside .cvpol).answers = .ok :: .ok :: .ok :: [] := ⟨rfl, rfl, rfl, rfl⟩

theorem witness_CommandEndsInItsFrame :
    commandRow (.cvpol .cv7 0xFF) (start [.ok, .ok, .ok, .fail]) =
      some ⟨.cvpol, ⟨true, true, true⟩, ⟨0x14, 0x00, 0xFF, 0x00⟩, .block, ⟨0, 0, 0, 0⟩⟩ ∧
    (start [.ok, .ok, .ok, .fail]).ph = .ready ∧ (start [.ok, .ok, .ok, .fail]).todo = [] ∧
    (start [.ok, .ok, .ok, .fail]).answers = .ok :: .ok :: .ok :: [.fail] := by decide

theorem witness_NoFrameOutsideItsOperation :
    running (start []) = false ∧ (inside .cvpol).op ∈ [Op.cvraw, .cvpol, .illegal] ∧
    (inside .init).op = .init ∧ (0x01 : Byte) ≠ 0x00 ∧ (inside .setg).op ≠ .cvraw ∧ (inside .setg).op ≠ .cvpol := by decide

/-- The six places of R122, for `SETG Gt1, 0xA5` (F1 to F6). -/
theorem witness_CommandFailsAsTheTableSays :
    commandRow (.setg .gt1 0xA5) (start []) =
      some ⟨.setg, ⟨true, false, false⟩, ⟨0x04, 0x00, 0xA5, 0x00⟩, .susp, ⟨0x00, 0xA5, 0x00, 0x00⟩⟩ ∧
    (start []).ph = .ready ∧ (start []).flt = .none ∧ (start []).order = .a012 ∧
    (start [.fail]).answers = .fail :: [] ∧ (start [.ok, .fail]).answers = .ok :: .fail :: [] ∧
    (start [.ok, .ok, .fail]).answers = .ok :: .ok :: .fail :: [] ∧
    (start [.ok, .ok, .ok, .fail]).answers = .ok :: .ok :: .ok :: .fail :: [] ∧
    (start [.ok, .ok, .ok, .ok, .fail, .fail]).answers = .ok :: .ok :: .ok :: .ok :: .fail :: .fail :: [] ∧
    (start [.ok, .ok, .ok, .ok, .ok, .fail]).answers = .ok :: .ok :: .ok :: .ok :: .ok :: .fail :: [] := by decide

theorem witness_CommandWaitsForAnAnswer :
    (commandRow (.ghi .gt0 .channel8) (start [])).isSome = true ∧ (start []).ph = .ready ∧ (start []).rst = false ∧
    (start []).answers = List.replicate 0 .ok ∧ (start [.ok, .ok, .ok, .ok]).answers = List.replicate 4 .ok ∧
    (start [.ok, .ok, .ok, .ok, .ok]).answers = List.replicate 5 .ok := by decide

theorem witness_CacheHoldsTheAttemptedMask :
    (start [.fail]).ph = .ready ∧ (∃ t, exec (.setg .gt0 0xFF) (start [.fail]) = .next t) ∧
    (∃ t, exec (.ghi .gt1 .channel1) (start []) = .next t) ∧ (∃ t, exec (.glo .gt3 .channel8) (start six) = .next t) :=
  ⟨rfl, ⟨_, rfl⟩, ⟨_, rfl⟩, ⟨_, rfl⟩⟩

/-- Two commands in either order, six answers each: the premises of R95's laws, for one pair of `i` and `j` per clause. -/
theorem witness_GateCacheLaws :
    ∀ p ∈ [(Instr.ghi .gt1 .channel8, Instr.ghi .gt1 .channel8), (.glo .gt1 .channel1, .glo .gt1 .channel1),
        (.ghi .gt1 .channel1, .ghi .gt1 .channel8), (.glo .gt1 .channel2, .glo .gt1 .channel3),
        (.ghi .gt1 .channel1, .glo .gt1 .channel2), (.ghi .gt1 .channel4, .glo .gt1 .channel4)],
      let both := fun i j => (after (exec i (start (six ++ six)))).bind fun t => (after (exec j t)).map fun u => (t.ph, u.ph)
      both p.1 p.2 = some (.ready, .ready) ∧ both p.2 p.1 = some (.ready, .ready) := by decide

theorem witness_GateSuccessMeansTheCachedMaskWasSent :
    (start six).ph = .ready ∧ (after (exec (.setg .gt3 0x00) (start six))).map (·.ph) = some .ready ∧
    (after (exec (.ghi .gt0 .channel1) (start six))).map (·.ph) = some .ready ∧
    (after (exec (.glo .gt2 .channel8) (start six))).map (·.ph) = some .ready := by decide

theorem witness_CommandChangesNothingElse :
    (commandRow (.cvraw .cv1 .channel1 0x400F) (start [.ok, .fail])).isSome = true ∧ (start [.ok, .fail]).ph = .ready ∧
    (after (exec (.cvraw .cv1 .channel1 0x400F) (start [.ok, .fail]))).map (·.ph) = some .faulted ∧
    (after (exec (.cvraw .cv1 .channel1 0x400F) (start [.ok]))).map (·.ph) = some .busy ∧
    (after (exec (.cvraw .cv1 .channel1 0x400F) (start six))).map (·.ph) = some .ready := by decide

theorem witness_FrameRowChangesNothingElse :
    Instr.isCommand (.frameGate 0xFF) = false ∧ (inside .setg).todo = [] ∧
    (∃ t, exec (.frameGate 0xFF) (inside .setg) = .next t) ∧ (∃ t, exec (.frameCvpol 0xFF) (inside .setg) = .next t) :=
  ⟨rfl, rfl, ⟨_, rfl⟩, ⟨_, rfl⟩⟩

/-- Both causes of a `FAULTED` command. -/
theorem witness_FaultedCommandReportsOneCause :
    (commandRow (.cvpol .cv7 0x00) (start [])).isSome = true ∧ (start []).ph = .ready ∧ (start []).flt = .none ∧
    (after (exec (.cvpol .cv7 0x00) (start [.fail]))).map (fun t => (t.ph, t.flt)) = some (.faulted, .pin) ∧
    (after (exec (.cvpol .cv7 0x00) (start [.ok, .ok, .ok, .ok, .fail, .ok]))).map (fun t => (t.ph, t.flt)) =
      some (.faulted, .bus) := by decide

theorem witness_StepRunsTheDecodedCommand :
    { start [] with cmds := [0x120000A5, 0] }.rst = false ∧ (start []).ph = .ready ∧
    decodeCommand 0x120000A5 = some (.setg .gt1 0xA5) := by decide

/-- The frame of a gate command, of `INIT`, of `CVRAW` and of `CVPOL` at the position. -/
theorem witness_StepEmitsTheFrameAtThePosition :
    (inside .ghi).rst = false ∧ running (inside .ghi) = true ∧ emitsGateFrame 0xFF .ghi = true ∧ emitsGateFrame 0x00 .init = true ∧
    ({ inside .ghi with todo := emitFrame ⟨0x04, 0x00, 0xFF, 0x00⟩ .susp } : State).todo =
      emitFrame (frameOfWord (encode (.frameGate 0xFF))) (modeOf .ghi) ++ [] ∧
    emitFrame ⟨0x04, 0x00, 0x00, 0x00⟩ .block = emitFrame (frameOfWord (encode (.frameGate 0x00))) (modeOf .init) ∧
    emitFrame ⟨0x1F, 0xFF, 0xF0, 0x00⟩ .susp = emitFrame (frameOfWord (encode (.frameCvraw .channel8 0xFFFF))) (modeOf .cvraw) ∧
    emitFrame ⟨0x14, 0x00, 0x5A, 0x00⟩ .block = emitFrame (frameOfWord (encode (.frameCvpol 0x5A))) (modeOf .cvpol) := by decide

theorem witness_IllegalWordIsRejected :
    { idle with cmds := [0xF0000000] }.rst = false ∧ idle.ph = .ready ∧ decodeCommand 0xF0000000 = none := by decide

theorem witness_NoCommandIsTakenOutsideReady :
    broken.ph ≠ .ready ∧ State.reset.ph ≠ .ready ∧ midway.ph ≠ .ready ∧
    (after (step { midway with cmds := [0x10000000] })).isSome = true ∧ Instr.isCommand (.setg .gt0 0) = true := by decide

theorem witness_FaultedOrIdleBlockRests :
    broken.rst = false ∧ broken.ph = .faulted ∧ idle.rst = false ∧ idle.ph = .ready ∧ idle.cmds = [] := by decide

theorem witness_ResetLeavesTheResetState : { midway with rst := true }.rst = true := rfl

theorem witness_CleanInitSweepsTheGateAddresses :
    State.reset.rst = false ∧ State.reset.ph = .unbuilt ∧
    (State.reset.setAnswers (List.replicate 26 .ok)).answers = List.replicate 25 .ok ++ [.ok] := by decide

/-- Places 0 and 24 (pin drives), 5 and 23 (the first and the last bus write), the last with and without a further answer. -/
theorem witness_InitEndsAtItsFirstFailure :
    (State.reset.rst = false ∧ State.reset.ph = .unbuilt ∧ State.reset.flt = .none) ∧
    (∀ k ∈ [0, 24], k < 25 ∧ k % 6 ≠ 5) ∧ (∀ k ∈ [5, 23], k < 25 ∧ k % 6 = 5) ∧
    ∀ (k : Nat) (rest : List Ans), (State.reset.setAnswers (List.replicate k .ok ++ .fail :: rest)).answers =
      List.replicate k .ok ++ .fail :: rest :=
  ⟨⟨rfl, rfl, rfl⟩, by decide, by decide, fun _ _ => rfl⟩

theorem witness_FrameRegisterAtResetIsNeverRead :
    State.reset.rst = false ∧ State.reset.ph = .unbuilt ∧ ∃ t, step (State.reset.setAnswers six) = .next t := ⟨rfl, rfl, ⟨_, rfl⟩⟩

theorem witness_StepKeepsThePhaseInvariant : PhaseInv broken ∧ PhaseInv midway ∧ ∃ t, step (midway.setAnswers [.fail]) = .next t :=
  ⟨broken_inv.phase, midway_inv.phase, ⟨_, rfl⟩⟩

theorem witness_StepKeepsTheTraceExplainingTheLatches : TraceInv midway ∧ ∃ t, step midway = .next t :=
  ⟨midway_inv.trace, ⟨_, rfl⟩⟩

theorem witness_StepKeepsTheInvariant : Inv midway ∧ Inv idle ∧ (∃ t, step midway = .next t) ∧ ∃ t, step idle = .next t :=
  ⟨midway_inv, idle_inv, ⟨_, rfl⟩, ⟨_, rfl⟩⟩

theorem witness_OutsideMovesKeepTheInvariant : Inv sent ∧ Inv broken := ⟨sent_inv, broken_inv⟩

theorem witness_ReadyMeansChipSelectHigh : Inv sent ∧ sent.ph = .ready := ⟨sent_inv, rfl⟩

theorem witness_BusWriteHappensWithChipSelectLow :
    WireInv sent ∧ sent.trace = (idle.trace ++ addrEvents .a012 (gatePattern .gt0) ++ [.pin .cs false .ok]) ++
      .bus ⟨0x04, 0x00, 0xA5, 0x00⟩ .susp .ok :: [.pin .cs true .ok, .ret .setg .ok] := ⟨sent_inv.wire, rfl⟩

theorem witness_OnlyGateCommandsWriteTheCache :
    { idle with cmds := [0x120000A5] }.rst = false ∧
    (after (step { idle with cmds := [0x120000A5] })).map (fun t => t.g != idle.g) = some true := by decide

theorem witness_TraceOnlyGrows : idle.rst = false ∧ ∃ t, step { midway with answers := [.ok] } = .next t := ⟨rfl, ⟨_, rfl⟩⟩

/-- Every phase, with reset asserted and released. -/
theorem witness_PhaseMovesOnlyAsListed :
    (after (step { idle with rst := true })).isSome = true ∧
    (State.reset.ph = .unbuilt ∧ (after (step State.reset)).isSome = true) ∧
    ((after (step State.reset)).bind (fun t => after (step t))).map (·.ph) = some .init ∧
    (idle.ph = .ready ∧ (after (step idle)).isSome = true) ∧ (midway.ph = .busy ∧ (after (step midway)).isSome = true) ∧
    (broken.ph = .faulted ∧ (after (step broken)).isSome = true) := by decide

theorem witness_LatchesAreNeverRead :
    SameButLatches midway { midway with cs := .high, a0 := .x, a1 := .high, a2 := .x } ∧ ∃ t, step midway = .next t :=
  ⟨rfl, ⟨_, rfl⟩⟩

/-- An operation that waits between the two lots of answers, and one that does not. -/
theorem witness_LateAnswersChangeNothing :
    midway.rst = false ∧ (after (step (midway.setAnswers [.ok]))).map running = some true ∧
    (after (step (midway.setAnswers ([.ok] ++ [.fail])))).map (·.ph) = some .faulted ∧
    (after (step (midway.setAnswers [.ok, .ok]))).map running = some false ∧
    (after (step (midway.setAnswers ([.ok, .ok] ++ [.ok])))).map (·.answers) = some [.ok] := by decide

end Sys2Proof.Tests
end

section
/-! SUPPORT and proofs. The statements about the state (10_state.md): which registers a step reads, which it writes, how the
phase moves, and what reset leaves. -/

namespace Sys2Proof.Machine

/-! ### Which move a step is (R16, R21, R62, R80, R120, R137, R160): `step_cases` read forwards -/

theorem step_of_rst {s : State} (hr : s.rst = true) : step s = .next (hardReset s) := by
  simp [step, nextMove, hr]

theorem step_of_unbuilt {s : State} (hr : s.rst = false) (hp : s.ph = .unbuilt) : step s = .next (startInit s) := by
  simp [step, nextMove, hr, hp]

theorem running_iff {s : State} : running s = true ↔ s.ph = .init ∨ s.ph = .busy := by
  simp [running]

theorem step_of_running {s : State} (hr : s.rst = false) (h : running s = true) : step s = .next (resume s) := by
  obtain hp | hp := running_iff.mp h <;> simp [step, nextMove, hr, hp]

theorem step_of_resting {s : State} (hr : s.rst = false) (h : s.ph = .faulted ∨ s.ph = .ready ∧ s.cmds = []) :
    step s = .next s := by
  obtain hp | ⟨hp, hc⟩ := h
  · simp [step, nextMove, hr, hp]
  · simp [step, nextMove, hr, hp, hc]

theorem step_of_illegal {s : State} {w : Word} {ws : List Word} (hr : s.rst = false) (hp : s.ph = .ready)
    (hc : s.cmds = w :: ws) (hd : decodeCommand w = none) : step s = .next (reject (takeCommand s)) := by
  simp [step, nextMove, hr, hp, hc, hd]

theorem step_of_command {s : State} {w : Word} {ws : List Word} {i : Instr} {r : CommandRow} (hr : s.rst = false)
    (hp : s.ph = .ready) (hc : s.cmds = w :: ws) (hd : decodeCommand w = some i) (hrow : commandRow i s = some r) :
    step s = .next
      (run (memWrite s.order r.pattern r.frame r.mode) { s with ph := .busy, op := r.op, g := r.g, cmds := ws }) := by
  have hrow' : commandRow i (takeCommand s) = some r := (commandRow_congr i (by simp)).trans hrow
  calc step s = exec i (takeCommand s) := by simp [step, nextMove, hr, hp, hc, hd]
    _ = _ := by rw [exec_row hrow' (by simpa using hp)]; simp [takeCommand, hc]

/-! ### The latches are never read (R13, R110)

`blind s` forgets the latches. It commutes with every operation but a drive of a latch, which it forgets too. -/

/-- The state with its four latches forgotten. -/
def blind (s : State) : State := { s with cs := .x, a0 := .x, a1 := .x, a2 := .x }

theorem sameButLatches_iff {s t : State} : SameButLatches s t ↔ blind s = blind t := by
  cases s; cases t
  simp [SameButLatches, blind, eq_comm]

@[simp] theorem blind_answers (s : State) : (blind s).answers = s.answers := rfl
@[simp] theorem blind_fb (s : State) : (blind s).fb = s.fb := rfl
@[simp] theorem blind_blind (s : State) : blind (blind s) = blind s := rfl
@[simp] theorem blind_setLatch (l : Line) (v : Level) (s : State) : blind (s.setLatch l v) = blind s := by cases l <;> rfl
@[simp] theorem blind_record (e : Event) (s : State) : blind (s.record e) = (blind s).record e := rfl
@[simp] theorem blind_buildFrame (f : Frame) (s : State) : blind (s.buildFrame f) = (blind s).buildFrame f := rfl
@[simp] theorem blind_setAnswers (as : List Ans) (s : State) : blind (s.setAnswers as) = (blind s).setAnswers as := rfl
@[simp] theorem blind_raise (x : Cause) (s : State) : blind (raise x s) = raise x (blind s) := rfl
@[simp] theorem blind_complete (s : State) : blind (complete s) = complete (blind s) := rfl
@[simp] theorem blind_suspend (steps : List MicroOp) (s : State) : blind (suspend steps s) = suspend steps (blind s) := rfl

theorem blind_cleanUp (s : State) : blind (cleanUp s) = blind (cleanUp (blind s)) := by
  match h : s.answers with
  | [] => simp [cleanUp_waits h, cleanUp_waits (s := blind s) h]
  | r :: as => simp [cleanUp_answers h, cleanUp_answers (s := blind s) h]

/-- What a run leaves, but for the latches, does not depend on the latches it starts with. -/
theorem blind_run (ops : List MicroOp) (s : State) : blind (run ops s) = blind (run ops (blind s)) := by
  induction ops generalizing s with
  | nil => simp [run_nil]
  | cons op ops ih =>
    cases op with
    | build f => rw [run_build, run_build, ih, blind_buildFrame]
    | drive l v =>
      match h : s.answers with
      | [] => simp [run_drive_waits h, run_drive_waits (s := blind s) h]
      | .ok :: as =>
        rw [run_drive_ok h, run_drive_ok (s := blind s) h, ih, ih (State.record _ _)]
        simp
      | .fail :: as => simp [run_drive_fail h, run_drive_fail (s := blind s) h]
    | write mode =>
      match h : s.answers with
      | [] => simp [run_write_waits h, run_write_waits (s := blind s) h]
      | .ok :: as => rw [run_write_ok h, run_write_ok (s := blind s) h, ih, blind_record, blind_setAnswers, blind_fb]
      | .fail :: as =>
        rw [run_write_fail h, run_write_fail (s := blind s) h, blind_cleanUp, blind_record, blind_setAnswers, blind_fb]
    | cleanUp => rw [run_cleanUp, run_cleanUp, blind_cleanUp]

theorem SameButLatches.run {ops : List MicroOp} {s t : State} (h : SameButLatches s t) :
    SameButLatches (Machine.run ops s) (Machine.run ops t) := by
  rw [sameButLatches_iff] at h ⊢
  rw [blind_run, h, ← blind_run]

/-- Settles O58: the two steps are the same move, and each move keeps `SameButLatches`, a run by `SameButLatches.run`. -/
theorem latchesAreNeverRead : Obligations.LatchesAreNeverRead := by
  intro s t s' hst h
  -- every field of `t` but the latches is, definitionally, that of `s`
  obtain ⟨cs, a0, a1, a2, rfl⟩ : ∃ cs a0 a1 a2, t = { s with cs := cs, a0 := a0, a1 := a1, a2 := a2 } := ⟨_, _, _, _, hst⟩
  obtain ⟨hr, rfl⟩ | ⟨hr, hp, rfl⟩ | ⟨hr, hrun, rfl⟩ | ⟨hr, hrest, rfl⟩ | ⟨hr, hp, ⟨w, ws, hc, hd⟩, rfl⟩ |
    ⟨hr, hp, w, ws, i, r, hc, hd, hrow, rfl⟩ := step_cases h
  · exact ⟨_, step_of_rst hr, rfl⟩
  · exact ⟨_, step_of_unbuilt hr hp, SameButLatches.run rfl⟩
  · exact ⟨_, step_of_running hr hrun, SameButLatches.run rfl⟩
  · exact ⟨_, step_of_resting hr hrest, rfl⟩
  · exact ⟨_, step_of_illegal hr hp hc hd, rfl⟩
  · exact ⟨_, step_of_command hr hp hc hd ((commandRow_congr i (by rfl)).trans hrow), SameButLatches.run rfl⟩
/-! ### The frame register before the first `BuildFrame` (R14, R25) -/

/-- No step hands the frame register to the bus before one has loaded it. -/
def buildsBeforeWriting : List MicroOp → Bool
  | [] => true
  | .drive _ _ :: rest => buildsBeforeWriting rest
  | .build _ :: _ => true
  | .write _ :: _ => false
  | .cleanUp :: _ => true

theorem drive_buildFrame (as : List Ans) (l : Line) (v : Level) (e : Event) (f : Frame) (s : State) :
    (((s.buildFrame f).setAnswers as).setLatch l v).record e = (((s.setAnswers as).setLatch l v).record e).buildFrame f := by
  cases l <;> rfl

theorem cleanUp_buildFrame (f : Frame) (s : State) : cleanUp (s.buildFrame f) = (cleanUp s).buildFrame f := by
  match h : s.answers with
  | [] => rw [cleanUp_waits h, cleanUp_waits (s := s.buildFrame f) h]; rfl
  | r :: as => rw [cleanUp_answers h, cleanUp_answers (s := s.buildFrame f) h, drive_buildFrame]; rfl

/-- A run that loads the frame register before it writes leaves the same state, but for that register, whatever the register
held. -/
theorem run_buildFrame {ops : List MicroOp} (hops : buildsBeforeWriting ops = true) (f : Frame) (s : State) :
    (run ops (s.buildFrame f)).buildFrame (run ops s).fb = run ops s := by
  induction ops generalizing s with
  | nil => rfl
  | cons op ops ih =>
    cases op with
    | build k => rfl
    | drive l v =>
      match h : s.answers with
      | [] => rw [run_drive_waits h, run_drive_waits (s := s.buildFrame f) h]; rfl
      | .ok :: as =>
        rw [run_drive_ok h, run_drive_ok (s := s.buildFrame f) h, drive_buildFrame]
        exact ih hops _
      | .fail :: as =>
        rw [run_drive_fail h, run_drive_fail (s := s.buildFrame f) h, drive_buildFrame]
        rfl
    | write mode => exact absurd hops (by simp [buildsBeforeWriting])
    | cleanUp =>
      rw [run_cleanUp, run_cleanUp, cleanUp_buildFrame]
      rfl

theorem buildsBeforeWriting_initSteps (order : DriveOrder) : buildsBeforeWriting (initSteps order) = true := by
  cases order <;> rfl

/-- Settles O47: from `UNBUILT` a step runs `INIT`, whose steps load `FB` before its first bus write. -/
theorem frameRegisterAtResetIsNeverRead : Obligations.FrameRegisterAtResetIsNeverRead := by
  intro s t f hr hp h
  obtain rfl : startInit s = t := by simpa [step_of_unbuilt hr hp] using h
  exact ⟨_, step_of_unbuilt hr hp,
    run_buildFrame (buildsBeforeWriting_initSteps s.order) f { s with ph := .init, op := .init }⟩

/-! ### What a run leaves in the frame register and in a latch (R27) -/

/-- The frame register is left as it was, or holds a frame that one of the steps loads. -/
theorem Runs.fb {ops : List MicroOp} {s t : State} (h : Runs ops s t) : t.fb = s.fb ∨ MicroOp.build t.fb ∈ ops := by
  induction h with
  | build _ ih => exact .inr (ih.elim (fun h => by simp [h]) (List.mem_cons_of_mem _))
  | drive_ok _ _ ih => exact ih.imp (by simp) (List.mem_cons_of_mem _)
  | write_ok _ _ ih => exact ih.imp (by simp) (List.mem_cons_of_mem _)
  | _ => exact .inl (by simp)

/-- The latch of an address line is left as it was, or at `X`, or at a level that one of the steps drives. -/
theorem Runs.latch {ops : List MicroOp} {s t : State} (h : Runs ops s t) {k : Line} (hk : k ≠ .cs) :
    t.latch k = s.latch k ∨ t.latch k = .x ∨ ∃ v, MicroOp.drive k v ∈ ops ∧ t.latch k = levelOf v := by
  have later {op : MicroOp} {ops : List MicroOp} {t : State} :
      (∃ v, MicroOp.drive k v ∈ ops ∧ t.latch k = levelOf v) → ∃ v, MicroOp.drive k v ∈ op :: ops ∧ t.latch k = levelOf v :=
    fun ⟨v, hv, ht⟩ => ⟨v, List.mem_cons_of_mem _ hv, ht⟩
  induction h with
  | build _ ih => exact ih.imp (by simp) (.imp id later)
  | write_ok _ _ ih => exact ih.imp (by simp) (.imp id later)
  | @drive_ok l v ops s t as _ _ ih =>
    by_cases hl : k = l
    · subst hl
      exact .inr (ih.elim (fun ht => .inr ⟨v, by simp, by simpa using ht⟩) (.imp id later))
    · exact ih.imp (by simp [hl]) (.imp id later)
  | @drive_fail l v ops s as _ =>
    by_cases hl : k = l
    · subst hl; exact .inr (.inl (by simp))
    · exact .inl (by simp [hl])
  | _ => exact .inl (by simp [hk])

theorem build_mem_memWrite {order : DriveOrder} {p : Pattern} {f k : Frame} {mode : Mode}
    (h : MicroOp.build k ∈ memWrite order p f mode) : k = f := by
  simpa [memWrite, assertAddr, emitFrame, framedTransfer] using h

theorem drive_mem_memWrite {order : DriveOrder} {p : Pattern} {f : Frame} {mode : Mode} {k : Line} {v : Bool} (hk : k ≠ .cs)
    (h : MicroOp.drive k v ∈ memWrite order p f mode) : v = p.at k := by
  simp [memWrite, assertAddr, emitFrame, framedTransfer, hk] at h
  exact h.2.symm

/-- After one `MemWrite` the latch of an address line is as it was, or at `X`, or at the level of the pattern. -/
theorem Runs.latch_memWrite {order : DriveOrder} {p : Pattern} {f : Frame} {mode : Mode} {s t : State}
    (h : Runs (memWrite order p f mode) s t) {k : Line} (hk : k ≠ .cs) :
    t.latch k = s.latch k ∨ t.latch k = .x ∨ t.latch k = levelOf (p.at k) :=
  (h.latch hk).imp id (.imp id fun ⟨_, hv, ht⟩ => drive_mem_memWrite hk hv ▸ ht)

/-- Settles O36: a command is the run of one `MemWrite`, and the lemmas on `Runs` say what a run leaves unchanged. -/
theorem commandChangesNothingElse : Obligations.CommandChangesNothingElse := by
  intro i r s t hrow hp h
  have hrun : Runs (memWrite s.order r.pattern r.frame r.mode) { s with ph := .busy, op := r.op, g := r.g } t := by
    rw [exec_row hrow hp, Host.Outcome.next.injEq] at h
    exact h ▸ runs_run _ _
  obtain ⟨hg, horder, hrst, hcmds, -⟩ := hrun.frame
  refine ⟨horder, hrst, hcmds, hg, hrun.fb.imp id build_mem_memWrite, ?_, ?_, hrun.trace, hrun.answers,
    hrun.latch_memWrite (k := .a0) (by simp), hrun.latch_memWrite (k := .a1) (by simp),
    hrun.latch_memWrite (k := .a2) (by simp)⟩
  · intro hf
    obtain ⟨-, -, hflt, -⟩ | ⟨hph, -⟩ | ⟨-, -, -, hflt, -⟩ := hrun.end
    · exact hflt
    · exact absurd hph hf
    · exact hflt
  · intro hb
    obtain ⟨hph, -⟩ | ⟨hph, -⟩ | ⟨-, -, -, -, hres⟩ := hrun.end
    · simp [hb] at hph
    · simp [hb] at hph
    · exact hres

/-! ### The phase (R16, R17) -/

/-- A run waits in its phase, or ends `READY` or `FAULTED`. -/
theorem run_ph_mem (ops : List MicroOp) (s : State) : (run ops s).ph ∈ [s.ph, .ready, .faulted] := by
  obtain ⟨h, -⟩ | ⟨h, -⟩ | ⟨h, -⟩ := (runs_run ops s).end <;> simp [h]

theorem PhaseInv.flt_none {s : State} (h : PhaseInv s) (hp : s.ph ≠ .faulted) : s.flt = .none :=
  of_not_not fun hf => hp (h.fault_iff.mp hf)

/-- From a state without a fault, in `INIT` or `BUSY` with the operation that fits, a run keeps the phase invariant. -/
theorem phaseInv_run {ops : List MicroOp} {s : State} (hflt : s.flt = .none) (hrun : running s = true)
    (hinit : s.ph = .init → s.op = .init) (hbusy : s.ph = .busy → s.op ≠ .init ∧ s.op ≠ .illegal) :
    PhaseInv (run ops s) := by
  obtain ⟨-, -, -, -, hop⟩ := run_frame ops s
  have hph := running_iff.mp hrun
  obtain ⟨hp, htodo, hf, -⟩ | ⟨hp, htodo, x, hf, -⟩ | ⟨hp, -, -, hf, -⟩ := (runs_run ops s).end
  · exact ⟨by simp [hp, hf, hflt], fun _ => htodo, by simp [hp], by simp [hp]⟩
  · refine ⟨?_, fun _ => htodo, by simp [hp], by simp [hp]⟩
    cases x <;> simp [hp, hf, hflt, raisedFault, faultOf]
  · refine ⟨?_, ?_, by rwa [hp, hop], by rwa [hp, hop]⟩
    · obtain h | h := hph <;> simp [hp, hf, hflt, h]
    · obtain h | h := hph <;> simp [running, hp, h]

theorem phaseInv_hardReset (s : State) : PhaseInv (hardReset s) := by
  constructor <;> simp [State.reset]

/-- Settles O48, move by move: an operation that begins or goes on runs without a fault, so `phaseInv_run` applies. -/
theorem stepKeepsThePhaseInvariant : Obligations.StepKeepsThePhaseInvariant := by
  intro s t hs h
  obtain ⟨-, rfl⟩ | ⟨-, hp, rfl⟩ | ⟨-, hrun, rfl⟩ | ⟨-, -, rfl⟩ | ⟨-, hp, -, rfl⟩ |
    ⟨-, hp, w, ws, i, r, -, -, hrow, rfl⟩ := step_cases h
  · exact phaseInv_hardReset s
  · exact phaseInv_run (hs.flt_none (by simp [hp])) rfl (fun _ => rfl) nofun
  · have hf : s.ph ≠ .faulted := by obtain h | h := running_iff.mp hrun <;> simp [h]
    exact phaseInv_run (hs.flt_none hf) hrun hs.init_op hs.busy_op
  · exact hs
  · exact ⟨hs.fault_iff, hs.no_steps, hs.init_op, hs.busy_op⟩
  · obtain ⟨hinit, hillegal, -⟩ := commandRow_legal hrow
    exact phaseInv_run (hs.flt_none (by simp [hp])) rfl nofun (fun _ => ⟨hinit, hillegal⟩)

/-- Settles O57: each move fixes the phase it starts in, and `run_ph_mem` says where a run ends. -/
theorem phaseMovesOnlyAsListed : Obligations.PhaseMovesOnlyAsListed := by
  intro s t h
  obtain ⟨hr, rfl⟩ | ⟨hr, hp, rfl⟩ | ⟨hr, hrun, rfl⟩ | ⟨hr, hrest, rfl⟩ | ⟨hr, hp, -, rfl⟩ |
    ⟨hr, hp, w, ws, i, r, -, -, -, rfl⟩ := step_cases h
  · simp [hr, State.reset]
  · refine ⟨by simp [hr], fun _ _ => run_ph_mem .., ?_, ?_, ?_, ?_⟩ <;> simp [hp]
  · have hend : (resume s).ph ∈ [s.ph, .ready, .faulted] := run_ph_mem s.todo s
    obtain hp | hp := running_iff.mp hrun <;> rw [hp] at hend <;> simpa [hr, hp] using hend
  · obtain hp | ⟨hp, -⟩ := hrest <;> simp [hr, hp]
  · simp [hr, hp]
  · refine ⟨by simp [hr], ?_, ?_, fun _ _ => (List.Perm.swap ..).subset (run_ph_mem ..), ?_, ?_⟩ <;> simp [hp]

/-! ### The trace (R13, R15, R18) -/

/-- Settles O56: reset and a run leave parameter and reset port alone, and a run only appends (`Runs.trace`). -/
theorem traceOnlyGrows : Obligations.TraceOnlyGrows := by
  have run_grows (ops : List MicroOp) (s : State) : (run ops s).order = s.order ∧ (run ops s).rst = s.rst ∧
      (s.rst = false → ∃ es, (run ops s).trace = s.trace ++ es) := by
    obtain ⟨-, horder, hrst, -⟩ := run_frame ops s
    exact ⟨horder, hrst, fun _ => (runs_run ops s).trace⟩
  intro s t h
  obtain ⟨hr, rfl⟩ | ⟨-, -, rfl⟩ | ⟨-, -, rfl⟩ | ⟨-, -, rfl⟩ | ⟨-, -, -, rfl⟩ |
    ⟨-, -, w, ws, i, r, -, -, -, rfl⟩ := step_cases h
  · simp [hr]
  · exact run_grows ..
  · exact run_grows ..
  · exact ⟨rfl, rfl, fun _ => ⟨[], by simp⟩⟩
  · exact ⟨rfl, rfl, fun _ => ⟨_, rfl⟩⟩
  · exact run_grows ..

/-- A state is explained by its trace when one with the same latches, trace and result is. -/
theorem TraceInv.congr {s t : State} (h : TraceInv s) (hlatch : ∀ l, t.latch l = s.latch l) (htrace : t.trace = s.trace)
    (hres : t.res = s.res) : TraceInv t :=
  ⟨fun l => by rw [hlatch, htrace, h.latches], by rw [hres, htrace, h.result]⟩

/-- One more event, when the latches and the result are what the event leaves. -/
theorem TraceInv.append {s t : State} (h : TraceInv s) (e : Event) (htrace : t.trace = s.trace ++ [e])
    (hlatch : ∀ l, t.latch l = latchStep l (s.latch l) e) (hres : t.res = resultStep s.res e) : TraceInv t :=
  ⟨fun l => by rw [hlatch, htrace, latchOfTrace_append, h.latches],
    by rw [hres, htrace, resultOfTrace_append, h.result]⟩

theorem TraceInv.drive {s : State} (h : TraceInv s) (as : List Ans) (l : Line) (v : Bool) (r : Ans) :
    TraceInv (((s.setAnswers as).setLatch l (latchAfter v r)).record (.pin l v r)) := by
  refine h.append (.pin l v r) (by simp) (fun k => ?_) (by simp [resultStep])
  by_cases hk : k = l
  · subst hk; simp [latchStep]
  · simp [latchStep, hk, Ne.symm hk]

theorem TraceInv.write {s : State} (h : TraceInv s) (as : List Ans) (f : Frame) (mode : Mode) (r : Ans) :
    TraceInv ((s.setAnswers as).record (.bus f mode r)) :=
  h.append (.bus f mode r) rfl (by simp [latchStep]) rfl

theorem TraceInv.raise {s : State} (h : TraceInv s) (x : Cause) : TraceInv (raise x s) :=
  h.append (.ret s.op (fatalOf x)) rfl (by simp [latchStep]) rfl

theorem TraceInv.complete {s : State} (h : TraceInv s) : TraceInv (complete s) :=
  h.append (.ret s.op .ok) rfl (by simp [latchStep]) rfl

theorem TraceInv.reject {s : State} (h : TraceInv s) : TraceInv (reject s) :=
  h.append (.ret .illegal .rejected) rfl (by simp [latchStep]) rfl

theorem TraceInv.suspend {s : State} (h : TraceInv s) (steps : List MicroOp) : TraceInv (suspend steps s) :=
  h.congr (by simp) rfl rfl

theorem Runs.traceInv {ops : List MicroOp} {s t : State} (h : Runs ops s t) (hs : TraceInv s) : TraceInv t := by
  induction h with
  | nil s => exact hs.complete
  | wait => exact hs.suspend _
  | build _ ih => exact ih (hs.congr (by simp) rfl rfl)
  | drive_ok _ _ ih => exact ih (hs.drive _ _ _ .ok)
  | drive_fail => exact (hs.drive _ _ _ .fail).raise _
  | write_ok _ _ ih => exact ih (hs.write _ _ _ _)
  | write_fail_wait => exact (hs.write _ _ _ _).suspend _
  | write_fail => exact ((hs.write _ _ _ _).drive _ _ _ _).raise _
  | cleanUp_wait => exact hs.suspend _
  | cleanUp => exact (hs.drive _ _ _ _).raise _

theorem traceInv_hardReset (s : State) : TraceInv (hardReset s) :=
  ⟨fun l => by cases l <;> rfl, rfl⟩

/-- Settles O49: a run keeps the trace invariant event by event (`Runs.traceInv`); what begins an operation touches no latch. -/
theorem stepKeepsTheTraceExplainingTheLatches : Obligations.StepKeepsTheTraceExplainingTheLatches := by
  intro s t hs h
  obtain ⟨-, rfl⟩ | ⟨-, -, rfl⟩ | ⟨-, -, rfl⟩ | ⟨-, -, rfl⟩ | ⟨-, -, -, rfl⟩ |
    ⟨-, -, w, ws, i, r, -, -, -, rfl⟩ := step_cases h
  · exact traceInv_hardReset s
  · exact (runs_run _ _).traceInv (hs.congr (by rintro ⟨⟩ <;> rfl) rfl rfl)
  · exact (runs_run _ _).traceInv hs
  · exact hs
  · exact (hs.congr (t := takeCommand s) (by simp) rfl rfl).reject
  · exact (runs_run _ _).traceInv (hs.congr (by rintro ⟨⟩ <;> rfl) rfl rfl)

/-! ### The cache (R11, R100) -/

/-- A row whose cache differs from the state's is that of a gate command, and differs at the command's address alone. -/
theorem commandRow_g {i : Instr} {s : State} {r : CommandRow} (h : commandRow i s = some r) (hg : r.g ≠ s.g) :
    ∃ a, ((∃ m, i = .setg a m) ∨ (∃ ch, i = .ghi a ch) ∨ (∃ ch, i = .glo a ch)) ∧
      ∀ t : State, t.g = r.g → ∀ b, b ≠ a → t.gate b = s.gate b := by
  cases i <;> simp only [commandRow, Option.some.injEq, reduceCtorEq] at h <;> subst h
  case setg a m => exact ⟨a, .inl ⟨m, rfl⟩, fun t ht b hb => by rw [gate_of_g ht, gate_setGate_other _ _ _ _ hb]⟩
  case ghi a ch => exact ⟨a, .inr (.inl ⟨ch, rfl⟩), fun t ht b hb => by rw [gate_of_g ht, gate_setGate_other _ _ _ _ hb]⟩
  case glo a ch => exact ⟨a, .inr (.inr ⟨ch, rfl⟩), fun t ht b hb => by rw [gate_of_g ht, gate_setGate_other _ _ _ _ hb]⟩
  case cvraw => exact absurd rfl hg
  case cvpol => exact absurd rfl hg

/-- Settles O55: a run leaves the cache alone, so only the row of a command that is taken can change it. -/
theorem onlyGateCommandsWriteTheCache : Obligations.OnlyGateCommandsWriteTheCache := by
  intro s t hr h hg
  obtain ⟨hr', -⟩ | ⟨-, -, rfl⟩ | ⟨-, -, rfl⟩ | ⟨-, -, rfl⟩ | ⟨-, -, -, rfl⟩ |
    ⟨-, hp, w, ws, i, r, hc, hd, hrow, rfl⟩ := step_cases h
  · exact absurd hr (by simp [hr'])
  · exact absurd (run_frame _ _).1 hg
  · exact absurd (run_frame _ _).1 hg
  · exact absurd rfl hg
  · exact absurd rfl hg
  · have hgr := (run_frame (memWrite s.order r.pattern r.frame r.mode)
      { s with ph := .busy, op := r.op, g := r.g, cmds := ws }).1
    obtain ⟨a, hi, hother⟩ := commandRow_g hrow (fun he => hg (hgr.trans he))
    refine ⟨hp, w, ws, a, hc, ?_, hother _ hgr⟩
    rw [hd]
    simpa using hi

/-! ### Frames at the position, and commands outside `READY` (R16, R21, R54) -/

theorem drive_suspend (as : List Ans) (l : Line) (v : Level) (e : Event) (steps : List MicroOp) (s : State) :
    (((suspend steps s).setAnswers as).setLatch l v).record e = suspend steps (((s.setAnswers as).setLatch l v).record e) := by
  cases l <;> rfl

theorem cleanUp_suspend (steps : List MicroOp) (s : State) : cleanUp (suspend steps s) = cleanUp s := by
  match h : s.answers with
  | [] => rw [cleanUp_waits h, cleanUp_waits (s := suspend steps s) h]; rfl
  | r :: as => rw [cleanUp_answers h, cleanUp_answers (s := suspend steps s) h, drive_suspend]; rfl

/-- A run does not read the position kept in the state: it runs the steps it is given. -/
theorem run_suspend (ops steps : List MicroOp) (s : State) : run ops (suspend steps s) = run ops s := by
  induction ops generalizing s with
  | nil => rfl
  | cons op ops ih =>
    cases op with
    | build f => exact ih (s.buildFrame f)
    | drive l v =>
      match h : s.answers with
      | [] => rw [run_drive_waits h, run_drive_waits (s := suspend steps s) h]; rfl
      | .ok :: as => rw [run_drive_ok h, run_drive_ok (s := suspend steps s) h, drive_suspend, ih]
      | .fail :: as => rw [run_drive_fail h, run_drive_fail (s := suspend steps s) h, drive_suspend]; rfl
    | write mode =>
      match h : s.answers with
      | [] => rw [run_write_waits h, run_write_waits (s := suspend steps s) h]; rfl
      | .ok :: as =>
        rw [run_write_ok h, run_write_ok (s := suspend steps s) h]
        exact ih (State.record (s.setAnswers as) (.bus s.fb mode .ok))
      | .fail :: as =>
        rw [run_write_fail h, run_write_fail (s := suspend steps s) h]
        exact cleanUp_suspend steps (State.record (s.setAnswers as) (.bus s.fb mode .fail))
    | cleanUp => exact cleanUp_suspend steps s

theorem emission_of_emits {s : State} {emits : Bool} (hrun : running s = true) (he : emits = true) (f : Frame) :
    emission emits f s = .next (run (emitFrame f (modeOf s.op) ++ s.todo) s) := by
  simp [emission, hrun, he]

/-- Settles O40: the step runs the position, the frame row the same steps, and a run does not read the position
(`run_suspend`). -/
theorem stepEmitsTheFrameAtThePosition : Obligations.StepEmitsTheFrameAtThePosition := by
  intro s i ops hr hrun hemits htodo
  have hexec : exec i (suspend ops s) =
      .next (run (emitFrame (frameOfWord (encode i)) (modeOf s.op) ++ ops) (suspend ops s)) := by
    obtain ⟨g, rfl, he⟩ | ⟨ch, v, rfl, he⟩ | ⟨p, rfl, he⟩ := hemits <;> rw [encode, frameOfWord_toWord]
    · exact emission_of_emits (s := suspend ops s) hrun he (gateFrame g)
    · have he : emitsRawFrame s.op = true := by rw [he]; rfl
      exact emission_of_emits (s := suspend ops s) hrun he (cvRawFrame ch v)
    · have he : emitsPolFrame s.op = true := by rw [he]; rfl
      exact emission_of_emits (s := suspend ops s) hrun he (cvPolFrame p)
  rw [step_of_running hr hrun, resume, htodo, ← run_suspend _ ops]
  exact hexec.symm

theorem whenReady_of_not_ready {s : State} (hp : s.ph ≠ .ready) (body : State) : whenReady s body = .next s := by
  simp [whenReady, cmdReady, hp]

theorem exec_of_not_ready {i : Instr} {s : State} (hi : i.isCommand = true) (hp : s.ph ≠ .ready) : exec i s = .next s := by
  cases i with
  | setg a m => exact whenReady_of_not_ready hp _
  | ghi a ch => exact whenReady_of_not_ready hp _
  | glo a ch => exact whenReady_of_not_ready hp _
  | cvraw c ch v => exact whenReady_of_not_ready hp _
  | cvpol c p => exact whenReady_of_not_ready hp _
  | frameGate g => cases hi
  | frameCvraw ch v => cases hi
  | frameCvpol p => cases hi

/-- Settles O42: the moves that take a word are those of `READY`, and a run leaves the words alone. -/
theorem noCommandIsTakenOutsideReady : Obligations.NoCommandIsTakenOutsideReady := by
  intro s hp
  refine ⟨fun t h => ?_, fun i hi => exec_of_not_ready hi hp⟩
  have run_cmds (ops : List MicroOp) (s : State) : (run ops s).cmds = s.cmds := by
    obtain ⟨-, -, -, h, -⟩ := run_frame ops s
    exact h
  obtain ⟨-, rfl⟩ | ⟨-, -, rfl⟩ | ⟨-, -, rfl⟩ | ⟨-, -, rfl⟩ | ⟨-, hready, -⟩ | ⟨-, hready, -⟩ := step_cases h
  · rfl
  · exact run_cmds ..
  · exact run_cmds ..
  · rfl
  · exact absurd hready hp
  · exact absurd hready hp

/-! ### Reset (R25, R160) -/

/-- Settles O44: with `rst` asserted a step is `hardReset`, which keeps of the old state the parameter and two inputs. -/
theorem resetLeavesTheResetState : Obligations.ResetLeavesTheResetState := by
  refine ⟨⟨rfl, rfl, rfl, rfl, rfl, rfl, rfl, rfl, rfl⟩, fun s => ⟨fun hr => ⟨hardReset s, step_of_rst hr, ?_⟩, ?_⟩⟩
  · exact ⟨⟨rfl, rfl, rfl, rfl, rfl, rfl, rfl, rfl, rfl⟩, hr, rfl, rfl⟩
  · exact ⟨⟨rfl, rfl, rfl, rfl, rfl, rfl, rfl, rfl, rfl⟩, rfl⟩

/-- The invariant holds while reset is held: no fault, no position, and an empty trace with the wires at their start. -/
theorem inv_hardReset (s : State) : Inv (hardReset s) where
  phase := phaseInv_hardReset s
  trace := traceInv_hardReset s
  wire := ⟨⟨.start, rfl, rfl⟩, by simp [State.reset]⟩

/-- Settles O51: `State.reset` is what `hardReset` makes of itself. -/
theorem resetStateMeetsTheInvariant : Obligations.ResetStateMeetsTheInvariant :=
  inv_hardReset State.reset

/-! ### The status word (R19, R21) -/

/-- The fields of a status word put together as R19 has them, read back. -/
theorem status_layout : ∀ (res : BitVec 2) (flt : BitVec 2) (ph : BitVec 3),
    (0#1 ++ res ++ flt ++ ph).extractLsb' 0 3 = ph ∧ (0#1 ++ res ++ flt ++ ph).extractLsb' 3 2 = flt ∧
      (0#1 ++ res ++ flt ++ ph).extractLsb' 5 2 = res ∧ (0#1 ++ res ++ flt ++ ph).getLsbD 7 = false := by
  decide

/-- Settles O60: the fields by `status_layout`, the codes constructor by constructor. -/
theorem statusWordFields : Obligations.StatusWordFields := by
  intro s
  obtain ⟨hph, hflt, hres, hzero⟩ := status_layout (resultCode s.res) (faultCode s.flt) (phaseCode s.ph)
  refine ⟨hph.trans ?_, hflt.trans ?_, hres.trans ?_, hzero, ?_⟩
  · cases s.ph <;> rfl
  · cases s.flt <;> rfl
  · cases s.res <;> rfl
  · rw [show (status s).extractLsb' 0 3 = phaseCode s.ph from hph]
    cases hp : s.ph <;> simp [cmdReady, phaseCode, hp]

end Sys2Proof.Machine
end

section
/-! SUPPORT and proofs. The statements of 20_memory.md: the address tables, and what caller, environment and reset may do to
the state. -/

namespace Sys2Proof.Machine

/-! ### The address tables (R31, R32) -/

/-- Settles O12, entry by entry: the two tables are listed in the model as in the spec, and ordinal 0 has no entry. -/
theorem addressTablesAreTheContract : Obligations.AddressTablesAreTheContract :=
  ⟨⟨rfl, rfl, rfl, rfl⟩, rfl, rfl, rfl, rfl, rfl, rfl, rfl, rfl⟩

/-! ### Moves of the outside (R43, R141, R160) -/

/-- The invariant speaks of the block alone: whatever the three inputs are changed to, it stays. -/
theorem Inv.withInputs {s : State} (h : Inv s) (rst : Bool) (cmds : List Word) (answers : List Ans) :
    Inv { s with rst := rst, cmds := cmds, answers := answers } where
  phase := ⟨h.phase.fault_iff, h.phase.no_steps, h.phase.init_op, h.phase.busy_op⟩
  trace := h.trace.congr (by rintro ⟨⟩ <;> rfl) rfl rfl
  wire := ⟨h.wire.disciplined, h.wire.legal⟩

/-- Settles O52: presenting, answering and releasing reset change an input alone (`Inv.withInputs`); asserting reset does so
in the reset state, which meets the invariant whatever the block was doing (`inv_hardReset`). -/
theorem outsideMovesKeepTheInvariant : Obligations.OutsideMovesKeepTheInvariant := by
  intro s w r h
  refine ⟨?present, ?answer, ?assertReset, ?releaseReset⟩
  case present => exact h.withInputs s.rst (s.cmds ++ [w]) s.answers
  case answer => exact h.withInputs s.rst s.cmds (s.answers ++ [r])
  case assertReset => exact (inv_hardReset s).withInputs true s.cmds []
  case releaseReset => exact h.withInputs false s.cmds s.answers

end Sys2Proof.Machine
end

section
/-! SUPPORT and proofs. The statements of 30_encoding.md: command words and their decoder, command lines, wire frames and
their readings, the frame rows, and the rejection of an illegal word. -/

namespace Sys2Proof

/-! ### Command words (R50 to R53) -/

/-- A word whose `ZERO` is 0 is packed from what its other four fields hold. -/
theorem packCommand_of_fields {w : Word} {op : BitVec 4} {addr chan : BitVec 3} {data : BitVec 16} (hzero : zeroField w = 0)
    (hop : opField w = op) (haddr : addr = addrField w) (hchan : chanField w = chan) (hdata : data = dataField w) :
    packCommand op addr chan data = w := by
  rw [← hop, haddr, ← hchan, hdata, packCommand_fields w hzero]

theorem byteData_dataLow {w : Word} (h : dataHigh w = 0) : byteData (dataLow w) = dataField w := by
  rw [dataLow_eq, byteData_of_high]
  rwa [← dataHigh_eq]

/-- Settles O1, row by row: each field of the encoding reads back as the operand it was packed from. -/
theorem decodeOfEncodeIsTheCommand : Obligations.DecodeOfEncodeIsTheCommand := by
  intro i hi
  cases i with
  | setg a m => simp [encode, decodeCommand, readCommand, readSetg, dataHigh_eq, dataLow_eq]
  | ghi a ch => simp [encode, decodeCommand, readCommand, readGhi]
  | glo a ch => simp [encode, decodeCommand, readCommand, readGlo]
  | cvraw c ch v => simp [encode, decodeCommand, readCommand, readCvraw]
  | cvpol c p => simp [encode, decodeCommand, readCommand, readCvpol, dataHigh_eq, dataLow_eq]
  | frameGate g => cases hi
  | frameCvraw ch v => cases hi
  | frameCvpol p => cases hi

section rows
variable {w : Word} {i : Instr} (hzero : zeroField w = 0)
include hzero

theorem encode_of_readSetg (hop : opField w = 0x1) (h : readSetg w = .ok i) : encode i = w := by
  unfold readSetg at h
  split at h
  · cases h
  · next a ha =>
    split_ifs at h with hchan hhigh
    cases h
    exact packCommand_of_fields hzero hop (gateOrdinal_gateAddrOf _ a ha) (not_not.mp hchan)
      (byteData_dataLow (not_not.mp hhigh))

theorem encode_of_readGhi (hop : opField w = 0x2) (h : readGhi w = .ok i) : encode i = w := by
  unfold readGhi at h
  split at h
  · cases h
  · next a ha =>
    split_ifs at h with hdata
    cases h
    exact packCommand_of_fields hzero hop (gateOrdinal_gateAddrOf _ a ha) (gateChanIndex_gateChanOf _).symm
      (not_not.mp hdata).symm

theorem encode_of_readGlo (hop : opField w = 0x3) (h : readGlo w = .ok i) : encode i = w := by
  unfold readGlo at h
  split at h
  · cases h
  · next a ha =>
    split_ifs at h with hdata
    cases h
    exact packCommand_of_fields hzero hop (gateOrdinal_gateAddrOf _ a ha) (gateChanIndex_gateChanOf _).symm
      (not_not.mp hdata).symm

theorem encode_of_readCvraw (hop : opField w = 0x4) (h : readCvraw w = .ok i) : encode i = w := by
  unfold readCvraw at h
  split at h
  · cases h
  · next c hc =>
    cases h
    exact packCommand_of_fields hzero hop (cvOrdinal_cvAddrOf _ c hc) (cvChanIndex_cvChanOf _).symm rfl

theorem encode_of_readCvpol (hop : opField w = 0x5) (h : readCvpol w = .ok i) : encode i = w := by
  unfold readCvpol at h
  split at h
  · cases h
  · next c hc =>
    split_ifs at h with hchan hhigh
    cases h
    exact packCommand_of_fields hzero hop (cvOrdinal_cvAddrOf _ c hc) (not_not.mp hchan)
      (byteData_dataLow (not_not.mp hhigh))

end rows

theorem readCommand_of_decodeCommand {w : Word} {i : Instr} (h : decodeCommand w = some i) : readCommand w = .ok i := by
  unfold decodeCommand at h
  split at h
  · next hread => rw [hread, Option.some.inj h]
  · cases h

theorem encode_of_readCommand {w : Word} {i : Instr} (h : readCommand w = .ok i) : encode i = w := by
  unfold readCommand at h
  split_ifs at h with hzero hsetg hghi hglo hcvraw hcvpol
  · exact encode_of_readSetg (not_not.mp hzero) hsetg h
  · exact encode_of_readGhi (not_not.mp hzero) hghi h
  · exact encode_of_readGlo (not_not.mp hzero) hglo h
  · exact encode_of_readCvraw (not_not.mp hzero) hcvraw h
  · exact encode_of_readCvpol (not_not.mp hzero) hcvpol h

/-- Settles O2: whichever row reads the word, each of its fields is checked or kept, so it is packed again from them. -/
theorem encodeOfDecodeIsTheWord : Obligations.EncodeOfDecodeIsTheWord := fun _ _ h =>
  ⟨Machine.decodeCommand_isCommand h, encode_of_readCommand (readCommand_of_decodeCommand h)⟩

/-- The decoder is the inverse of the encoder on commands (R53, both ways). -/
theorem decodeCommand_eq_some_iff {w : Word} {i : Instr} :
    decodeCommand w = some i ↔ i.isCommand = true ∧ encode i = w :=
  ⟨encodeOfDecodeIsTheWord w i, fun ⟨hi, hw⟩ => hw ▸ decodeOfEncodeIsTheCommand i hi⟩

/-! ### Rows of mask and match (R52) -/

theorem slice_slice {n : Nat} (x : BitVec n) (start a : Nat) {len k : Nat} (h : a + k ≤ len) :
    (x.extractLsb' start len).extractLsb' a k = x.extractLsb' (start + a) k := by
  ext j hj
  simp [BitVec.getElem_extractLsb', show a + j < len by omega, Nat.add_assoc]

/-- Where the mask is all ones, a word that fits has the bits of the match. -/
theorem slice_of_mask {w mask val : Word} (h : w &&& mask = val) (start : Nat) {len : Nat}
    (hmask : mask.extractLsb' start len = BitVec.allOnes len) : w.extractLsb' start len = val.extractLsb' start len := by
  rw [← h, BitVec.extractLsb'_and, hmask, BitVec.and_allOnes]

/-- With bit 27 clear, `ADDR` is the ordinal of a gate address. -/
theorem exists_gateOrdinal {w : Word} (h : w.extractLsb' 27 1 = 0) : ∃ a, gateOrdinal a = addrField w := by
  have hlow : (addrField w).extractLsb' 2 1 = 0 := (slice_slice w 25 2 (by decide)).trans h
  have hsome : ∀ v : BitVec 3, v.extractLsb' 2 1 = 0 → (gateAddrOf v).isSome := by decide
  obtain ⟨a, ha⟩ := Option.isSome_iff_exists.mp (hsome _ hlow)
  exact ⟨a, gateOrdinal_gateAddrOf _ _ ha⟩

/-- An `ADDR` other than 0 is the ordinal of a CV address. -/
theorem exists_cvOrdinal {w : Word} (h : addrField w ≠ 0) : ∃ c, cvOrdinal c = addrField w := by
  have hsome : ∀ v : BitVec 3, v ≠ 0 → (cvAddrOf v).isSome := by decide
  obtain ⟨c, hc⟩ := Option.isSome_iff_exists.mp (hsome _ h)
  exact ⟨c, cvOrdinal_cvAddrOf _ _ hc⟩

theorem cvOrdinal_ne_zero (c : CvAddr) : cvOrdinal c ≠ 0 := by
  cases c <;> decide

/-- Settles O3. A command of the row fits by the laws `FitsRow`; a word that fits has the row's fixed fields, and its other
fields are operands, so it is the encoding of a command of the row. -/
theorem wordSpellsACommandExactlyWhenItsRowMatches : Obligations.WordSpellsACommandExactlyWhenItsRowMatches := by
  intro w
  simp only [decodeCommand_eq_some_iff, Instr.isCommand, true_and]
  refine ⟨⟨?_, fun h => ?_⟩, ⟨?_, fun h => ?_⟩, ⟨?_, fun h => ?_⟩, ⟨?_, fun ⟨h, haddr⟩ => ?_⟩, ⟨?_, fun ⟨h, haddr⟩ => ?_⟩⟩
  · rintro ⟨a, m, rfl⟩
    exact Laws.FitsRow.setg a m
  · obtain ⟨a, ha⟩ := exists_gateOrdinal (slice_of_mask h 27 rfl)
    exact ⟨a, dataLow w, packCommand_of_fields (slice_of_mask h 16 rfl) (slice_of_mask h 28 rfl) ha (slice_of_mask h 22 rfl)
      (byteData_dataLow (slice_of_mask h 8 rfl))⟩
  · rintro ⟨a, ch, rfl⟩
    exact Laws.FitsRow.ghi a ch
  · obtain ⟨a, ha⟩ := exists_gateOrdinal (slice_of_mask h 27 rfl)
    exact ⟨a, gateChanOf (chanField w), packCommand_of_fields (slice_of_mask h 16 rfl) (slice_of_mask h 28 rfl) ha
      (gateChanIndex_gateChanOf _).symm (slice_of_mask h 0 rfl).symm⟩
  · rintro ⟨a, ch, rfl⟩
    exact Laws.FitsRow.glo a ch
  · obtain ⟨a, ha⟩ := exists_gateOrdinal (slice_of_mask h 27 rfl)
    exact ⟨a, gateChanOf (chanField w), packCommand_of_fields (slice_of_mask h 16 rfl) (slice_of_mask h 28 rfl) ha
      (gateChanIndex_gateChanOf _).symm (slice_of_mask h 0 rfl).symm⟩
  · rintro ⟨c, ch, v, rfl⟩
    exact ⟨Laws.FitsRow.cvraw c ch v, (addrField_packCommand ..).trans_ne (cvOrdinal_ne_zero c)⟩
  · obtain ⟨c, hc⟩ := exists_cvOrdinal haddr
    exact ⟨c, cvChanOf (chanField w), dataField w, packCommand_of_fields (slice_of_mask h 16 rfl) (slice_of_mask h 28 rfl) hc
      (cvChanIndex_cvChanOf _).symm rfl⟩
  · rintro ⟨c, p, rfl⟩
    exact ⟨Laws.FitsRow.cvpol c p, (addrField_packCommand ..).trans_ne (cvOrdinal_ne_zero c)⟩
  · obtain ⟨c, hc⟩ := exists_cvOrdinal haddr
    exact ⟨c, dataLow w, packCommand_of_fields (slice_of_mask h 16 rfl) (slice_of_mask h 28 rfl) hc (slice_of_mask h 22 rfl)
      (byteData_dataLow (slice_of_mask h 8 rfl))⟩

/-- Settles O4 by evaluating the two decoders on the words. -/
theorem wordsWrittenOutDecodeAsTheSpecSays : Obligations.WordsWrittenOutDecodeAsTheSpecSays :=
  ⟨rfl, rfl, rfl, rfl, rfl, rfl, rfl, rfl, rfl, rfl, rfl, rfl, rfl, rfl⟩

/-! ### Command lines (R65, R66) -/

/-- The line that spells a command; a frame has none. -/
def spelling : Instr → Option CommandLine
  | .setg a m => some (.setg (gateOrdinal a).toNat m.toNat)
  | .ghi a ch => some (.ghi (gateOrdinal a).toNat ((gateChanIndex ch).toNat + 1))
  | .glo a ch => some (.glo (gateOrdinal a).toNat ((gateChanIndex ch).toNat + 1))
  | .cvraw c ch v => some (.cvraw (cvOrdinal c).toNat ((cvChanIndex ch).toNat + 1) v.toNat)
  | .cvpol c p => some (.cvpol (cvOrdinal c).toNat p.toNat)
  | .frameGate _ => none
  | .frameCvraw _ _ => none
  | .frameCvpol _ => none

theorem spelling_isSome (i : Instr) : (spelling i).isSome = i.isCommand := by
  cases i <;> rfl

theorem gateAddrOf_inRange {n : Nat} (h : gateAddrInRange n = true) :
    ∃ a, gateAddrOf (BitVec.ofNat 3 n) = some a ∧ (gateOrdinal a).toNat = n := by
  have h : n < 4 := by simpa [gateAddrInRange] using h
  interval_cases n <;> exact ⟨_, rfl, rfl⟩

theorem cvAddrOf_inRange {n : Nat} (h : cvAddrInRange n = true) :
    ∃ c, cvAddrOf (BitVec.ofNat 3 n) = some c ∧ (cvOrdinal c).toNat = n := by
  obtain ⟨h1, h7⟩ : 1 ≤ n ∧ n ≤ 7 := by simpa [cvAddrInRange] using h
  interval_cases n <;> exact ⟨_, rfl, rfl⟩

theorem chanNumber_inRange {n : Nat} (h : chanInRange n = true) : (BitVec.ofNat 3 (n - 1)).toNat + 1 = n := by
  obtain ⟨h1, h8⟩ : 1 ≤ n ∧ n ≤ 8 := by simpa [chanInRange] using h
  rw [BitVec.toNat_ofNat]
  omega

theorem byte_inRange {n : Nat} (h : byteInRange n = true) : (BitVec.ofNat 8 n).toNat = n := by
  have h : n < 256 := by simpa [byteInRange] using h
  exact Nat.mod_eq_of_lt h

theorem value_inRange {n : Nat} (h : valueInRange n = true) : (BitVec.ofNat 16 n).toNat = n := by
  have h : n < 65536 := by simpa [valueInRange] using h
  exact Nat.mod_eq_of_lt h

/-- A line in range spells a command, and the command's spelling is that line. -/
theorem CommandLine.instr_of_wellFormed {l : CommandLine} (h : l.wellFormed = true) :
    ∃ i, l.instr = some i ∧ spelling i = some l := by
  cases l with
  | setg addr mask =>
    obtain ⟨haddr, hmask⟩ : gateAddrInRange addr = true ∧ byteInRange mask = true := by simpa [wellFormed] using h
    obtain ⟨a, ha, hn⟩ := gateAddrOf_inRange haddr
    refine ⟨.setg a (BitVec.ofNat 8 mask), ?_, ?_⟩
    · simp only [instr, h, if_true, ha, Option.map_some]
    · simp only [spelling, hn, byte_inRange hmask]
  | ghi addr chan =>
    obtain ⟨haddr, hchan⟩ : gateAddrInRange addr = true ∧ chanInRange chan = true := by simpa [wellFormed] using h
    obtain ⟨a, ha, hn⟩ := gateAddrOf_inRange haddr
    refine ⟨.ghi a (gateChanOf (BitVec.ofNat 3 (chan - 1))), ?_, ?_⟩
    · simp only [instr, h, if_true, ha, Option.map_some]
    · simp only [spelling, hn, gateChanIndex_gateChanOf, chanNumber_inRange hchan]
  | glo addr chan =>
    obtain ⟨haddr, hchan⟩ : gateAddrInRange addr = true ∧ chanInRange chan = true := by simpa [wellFormed] using h
    obtain ⟨a, ha, hn⟩ := gateAddrOf_inRange haddr
    refine ⟨.glo a (gateChanOf (BitVec.ofNat 3 (chan - 1))), ?_, ?_⟩
    · simp only [instr, h, if_true, ha, Option.map_some]
    · simp only [spelling, hn, gateChanIndex_gateChanOf, chanNumber_inRange hchan]
  | cvraw addr chan value =>
    obtain ⟨⟨haddr, hchan⟩, hvalue⟩ :
        (cvAddrInRange addr = true ∧ chanInRange chan = true) ∧ valueInRange value = true := by simpa [wellFormed] using h
    obtain ⟨c, hc, hn⟩ := cvAddrOf_inRange haddr
    refine ⟨.cvraw c (cvChanOf (BitVec.ofNat 3 (chan - 1))) (BitVec.ofNat 16 value), ?_, ?_⟩
    · simp only [instr, h, if_true, hc, Option.map_some]
    · simp only [spelling, hn, cvChanIndex_cvChanOf, chanNumber_inRange hchan, value_inRange hvalue]
  | cvpol addr pol =>
    obtain ⟨haddr, hpol⟩ : cvAddrInRange addr = true ∧ byteInRange pol = true := by simpa [wellFormed] using h
    obtain ⟨c, hc, hn⟩ := cvAddrOf_inRange haddr
    refine ⟨.cvpol c (BitVec.ofNat 8 pol), ?_, ?_⟩
    · simp only [instr, h, if_true, hc, Option.map_some]
    · simp only [spelling, hn, byte_inRange hpol]

theorem CommandLine.instr_of_not_wellFormed {l : CommandLine} (h : l.wellFormed = false) : l.instr = none := by
  simp [instr, h]

/-- A line that spells a command is in range, and is the command's spelling. -/
theorem CommandLine.spelling_of_instr {l : CommandLine} {i : Instr} (h : l.instr = some i) :
    l.wellFormed = true ∧ spelling i = some l := by
  cases hl : l.wellFormed with
  | false => simp [instr_of_not_wellFormed hl] at h
  | true =>
    obtain ⟨j, hj, hs⟩ := instr_of_wellFormed hl
    obtain rfl : j = i := Option.some.inj (hj.symm.trans h)
    exact ⟨rfl, hs⟩

/-- Settles O5: `spelling` reads a line back from the command it spells. -/
theorem lineSpellsACommandExactlyWhenInRange : Obligations.LineSpellsACommandExactlyWhenInRange := by
  refine ⟨fun l => ⟨fun h => ?_, fun ⟨i, hi, _⟩ => ?_⟩, fun l h => ?_, fun l k i hl hk => ?_⟩
  · obtain ⟨i, hi, hs⟩ := CommandLine.instr_of_wellFormed h
    exact ⟨i, hi, by rw [← spelling_isSome, hs]; rfl⟩
  · exact (CommandLine.spelling_of_instr hi).1
  · exact CommandLine.instr_of_not_wellFormed h
  · obtain ⟨-, hl⟩ := CommandLine.spelling_of_instr hl
    obtain ⟨-, hk⟩ := CommandLine.spelling_of_instr hk
    exact Option.some.inj (hl.symm.trans hk)

/-! ### Wire frames and their readings (R54 to R60) -/

theorem toWord_of_eq_frameOfWord {f : Frame} {w : Word} (h : f = frameOfWord w) : f.toWord = w := by
  rw [h, toWord_frameOfWord]

@[simp] theorem toWord_b0 (f : Frame) : f.toWord.extractLsb' 24 8 = f.b0 := congrArg Frame.b0 (frameOfWord_toWord f)
@[simp] theorem toWord_b1 (f : Frame) : f.toWord.extractLsb' 16 8 = f.b1 := congrArg Frame.b1 (frameOfWord_toWord f)
@[simp] theorem toWord_b2 (f : Frame) : f.toWord.extractLsb' 8 8 = f.b2 := congrArg Frame.b2 (frameOfWord_toWord f)
@[simp] theorem toWord_b3 (f : Frame) : f.toWord.extractLsb' 0 8 = f.b3 := congrArg Frame.b3 (frameOfWord_toWord f)

/-- A number with the header and the last byte of a gate or polarity frame is that frame (R55, R56, R60). -/
theorem toWord_of_header {w : Word} {b0 : Byte} (h : w &&& 0xFFFF00FF = (Frame.mk b0 0x00 0x00 0x00).toWord) :
    (Frame.mk b0 0x00 (w.extractLsb' 8 8) 0x00).toWord = w := by
  apply toWord_of_eq_frameOfWord
  rw [frameOfWord, slice_of_mask h 24 rfl, slice_of_mask h 16 rfl, slice_of_mask h 0 rfl, toWord_b0, toWord_b1, toWord_b3]

theorem readGateFrame_encode (g : Byte) : readGateFrame (encode (.frameGate g)) = some (.frameGate g) :=
  (if_pos (Laws.FitsRow.frameGate g)).trans (congrArg (some ∘ Instr.frameGate) (toWord_b2 (gateFrame g)))

theorem readPolFrame_encode (p : Byte) : readPolFrame (encode (.frameCvpol p)) = some (.frameCvpol p) :=
  (if_pos (Laws.FitsRow.frameCvpol p)).trans (congrArg (some ∘ Instr.frameCvpol) (toWord_b2 (cvPolFrame p)))

theorem readGateFrame_eq_some {w : Word} {i : Instr} (h : readGateFrame w = some i) : i.isCommand = false ∧ encode i = w := by
  unfold readGateFrame at h
  split_ifs at h with hfit
  cases h
  exact ⟨rfl, toWord_of_header hfit⟩

theorem readPolFrame_eq_some {w : Word} {i : Instr} (h : readPolFrame w = some i) : i.isCommand = false ∧ encode i = w := by
  unfold readPolFrame at h
  split_ifs at h with hfit
  cases h
  exact ⟨rfl, toWord_of_header hfit⟩

/-- In byte 0 of a CV raw frame the code keeps to the high nibble and the value to the low one (R57, R58, R104). -/
theorem cvRawFrame_b0_nibbles (ch : CvChan) (v : BitVec 16) :
    (cvRawFrame ch v).b0.extractLsb' 4 3 = (cvCode ch).extractLsb' 4 3 ∧
      (cvRawFrame ch v).b0.extractLsb' 0 4 = v.extractLsb' 12 4 := by
  have h : ∀ n : BitVec 4, (cvRawBase ||| cvCode ch ||| n.setWidth 8).extractLsb' 4 3 = (cvCode ch).extractLsb' 4 3 ∧
      (cvRawBase ||| cvCode ch ||| n.setWidth 8).extractLsb' 0 4 = n := by
    cases ch <;> decide
  exact h _

/-- Byte 0 of a CV raw frame from the code and the nibble read from it, when its top bit is clear. -/
theorem cvRawByte_of_nibbles : ∀ b : Byte, b.extractLsb' 7 1 = 0 →
    cvRawBase ||| cvCode (cvChanOfCode (b.extractLsb' 4 3)) ||| (b.extractLsb' 0 4).setWidth 8 = b := by
  decide

/-- The channel of a CV raw frame is read back from its number. -/
theorem channel_of_cvRawFrame (ch : CvChan) (v : BitVec 16) :
    cvChanOfCode ((cvRawFrame ch v).toWord.extractLsb' 28 3) = ch := by
  obtain ⟨hcode, -⟩ := cvRawFrame_b0_nibbles ch v
  rw [← slice_slice _ 24 4 (len := 8) (by decide), toWord_b0, hcode, cvChanOfCode_cvCode]

/-- Sixteen bits as a nibble, a byte and a nibble, the cut of R57. -/
theorem nibble_byte_nibble {n : Nat} (x : BitVec n) (start : Nat) :
    x.extractLsb' (start + 12) 4 ++ x.extractLsb' (start + 4) 8 ++ x.extractLsb' start 4 = x.extractLsb' start 16 := by
  rw [BitVec.extractLsb'_append_extractLsb'_eq_extractLsb' (by omega),
    BitVec.extractLsb'_append_extractLsb'_eq_extractLsb' (by omega)]

/-- The value of a CV raw frame is read back from its number. -/
theorem value_of_cvRawFrame (ch : CvChan) (v : BitVec 16) : (cvRawFrame ch v).toWord.extractLsb' 12 16 = v := by
  have hhigh : (cvRawFrame ch v).toWord.extractLsb' 24 4 = v.extractLsb' 12 4 := by
    obtain ⟨-, hvalue⟩ := cvRawFrame_b0_nibbles ch v
    rw [← slice_slice _ 24 0 (len := 8) (by decide), toWord_b0, hvalue]
  have hmid : (cvRawFrame ch v).toWord.extractLsb' 16 8 = v.extractLsb' 4 8 := toWord_b1 _
  have hlow : (cvRawFrame ch v).toWord.extractLsb' 12 4 = v.extractLsb' 0 4 := by
    rw [← slice_slice _ 8 4 (len := 8) (by decide), toWord_b2, cvRawFrame, BitVec.extractLsb'_append_eq_left]
  calc (cvRawFrame ch v).toWord.extractLsb' 12 16
      = v.extractLsb' 12 4 ++ v.extractLsb' 4 8 ++ v.extractLsb' 0 4 := by
        rw [← hhigh, ← hmid, ← hlow]; exact (nibble_byte_nibble _ 12).symm
    _ = v.extractLsb' 0 16 := nibble_byte_nibble v 0
    _ = v := BitVec.extractLsb'_eq_self

theorem readRawFrame_encode (ch : CvChan) (v : BitVec 16) :
    readRawFrame (encode (.frameCvraw ch v)) = some (.frameCvraw ch v) := by
  have hfit : encode (.frameCvraw ch v) &&& 0x80000FFF = 0x00000000 := Laws.FitsRow.frameCvraw ch v
  rw [readRawFrame, if_pos hfit, encode, channel_of_cvRawFrame, value_of_cvRawFrame]

theorem readRawFrame_eq_some {w : Word} {i : Instr} (h : readRawFrame w = some i) : i.isCommand = false ∧ encode i = w := by
  unfold readRawFrame at h
  split_ifs at h with hfit
  cases h
  refine ⟨rfl, toWord_of_eq_frameOfWord ?_⟩
  have hb0 := cvRawByte_of_nibbles (w.extractLsb' 24 8) ((slice_slice w 24 7 (by decide)).trans (slice_of_mask hfit 31 rfl))
  have hb2 : w.extractLsb' 12 4 ++ w.extractLsb' 8 4 = w.extractLsb' 8 8 :=
    BitVec.extractLsb'_append_extractLsb'_eq_extractLsb' rfl
  have hlow : w.extractLsb' 8 4 = 0#4 := slice_of_mask hfit 8 rfl
  have hb3 : w.extractLsb' 0 8 = 0x00 := slice_of_mask hfit 0 rfl
  simp only [slice_slice, Nat.reduceAdd, Nat.reduceLeDiff, hlow] at hb0 hb2
  simp only [cvRawFrame, frameOfWord, slice_slice, Nat.reduceAdd, Nat.reduceLeDiff, hb0, hb2, hb3]

theorem mem_frameReadings {w : Word} {i : Instr} :
    i ∈ frameReadings w ↔ readGateFrame w = some i ∨ readPolFrame w = some i ∨ readRawFrame w = some i := by
  simp [frameReadings]

/-- Settles O6, format by format: a reader gives back the operands of its own frames, and only of them. -/
theorem frameIsAmongTheReadingsOfItsNumber : Obligations.FrameIsAmongTheReadingsOfItsNumber := by
  refine ⟨fun i hi => mem_frameReadings.mpr ?_, fun w i hi => ?_⟩
  · cases i with
    | frameGate g => exact .inl (readGateFrame_encode g)
    | frameCvpol p => exact .inr (.inl (readPolFrame_encode p))
    | frameCvraw ch v => exact .inr (.inr (readRawFrame_encode ch v))
    | setg a m => cases hi
    | ghi a ch => cases hi
    | glo a ch => cases hi
    | cvraw c ch v => cases hi
    | cvpol c p => cases hi
  · obtain h | h | h := mem_frameReadings.mp hi
    · exact readGateFrame_eq_some h
    · exact readPolFrame_eq_some h
    · exact readRawFrame_eq_some h

/-! ### The CV raw frame (R57, R58, R60) -/

theorem highNibble_eq_mask_shift (v : BitVec 16) : (v.extractLsb' 12 4).setWidth 8 = ((v &&& 0xF000) >>> 12).setWidth 8 := by
  apply BitVec.eq_of_getLsbD_eq
  intro j hj
  interval_cases j <;> simp

theorem middleByte_eq_mask_shift (v : BitVec 16) : v.extractLsb' 4 8 = ((v &&& 0x0FF0) >>> 4).setWidth 8 := by
  apply BitVec.eq_of_getLsbD_eq
  intro j hj
  interval_cases j <;> simp

theorem lowNibble_eq_mask_shift (v : BitVec 16) : v.extractLsb' 0 4 ++ 0#4 = ((v &&& 0x000F) <<< 4).setWidth 8 := by
  apply BitVec.eq_of_getLsbD_eq
  intro j hj
  rw [BitVec.getLsbD_append]
  interval_cases j <;> simp

theorem highNibble_eq_zero {v : BitVec 16} (h : v ≤ 0x0FFF) : v.extractLsb' 12 4 = 0 := by
  have h : v.toNat ≤ 0x0FFF := h
  apply BitVec.eq_of_toNat_eq
  simp only [BitVec.extractLsb'_toNat, Nat.shiftRight_eq_div_pow, BitVec.ofNat_eq_ofNat, BitVec.toNat_ofNat]
  omega

/-- Byte 0 of the CV raw frame of an in-range value is the channel code. -/
theorem cvRawFrame_b0_inRange (ch : CvChan) {v : BitVec 16} (h : v ≤ 0x0FFF) : (cvRawFrame ch v).b0 = cvCode ch := by
  rw [cvRawFrame, highNibble_eq_zero h]
  cases ch <;> rfl

/-- Settles O10, byte by byte: each slice of the value is its mask and shift, and `CV_RAW_BASE` adds nothing. -/
theorem cvRawFrameIsTheMaskAndShiftFormula : Obligations.CvRawFrameIsTheMaskAndShiftFormula := by
  refine fun ch v => ⟨?_, cvRawFrame_b0_inRange ch⟩
  rw [cvRawFrame, show cvRawBase = 0#8 from rfl, BitVec.zero_or, highNibble_eq_mask_shift, middleByte_eq_mask_shift,
    lowNibble_eq_mask_shift]

/-- Settles O7: byte 0 tells the three formats apart, since no channel code is 0x04 or 0x14. -/
theorem framesOfInRangeValuesAreDisjoint : Obligations.FramesOfInRangeValuesAreDisjoint := by
  intro g p ch v hv
  have hb0 := cvRawFrame_b0_inRange ch hv
  obtain ⟨hgate, hpol⟩ : cvCode ch ≠ 0x04 ∧ cvCode ch ≠ 0x14 := by cases ch <;> decide
  have hheader : (0x04 : Byte) ≠ 0x14 := by decide
  exact ⟨fun h => hheader (congrArg Frame.b0 h), fun h => hgate (hb0.symm.trans (congrArg Frame.b0 h)),
    fun h => hpol (hb0.symm.trans (congrArg Frame.b0 h))⟩

/-- Settles O8: sixteen values, each evaluated; the patterns are entries of the two address tables. -/
theorem outOfRangeValueForgesAFrame : Obligations.OutOfRangeValueForgesAFrame := by
  have hgate : ∀ k : BitVec 4, cvRawFrame .channel1 (0x400#12 ++ k) = gateFrame (k ++ 0#4) := by decide
  have hpol : ∀ k : BitVec 4, cvRawFrame .channel8 (0x400#12 ++ k) = cvPolFrame (k ++ 0#4) := by decide
  exact fun k => ⟨hgate k, hpol k, rfl, rfl, rfl⟩

/-- Settles O11: the codes are listed in the model as in the table, and byte 0 is built by that OR. -/
theorem channelCodesAreTheTable : Obligations.ChannelCodesAreTheTable :=
  ⟨⟨rfl, rfl, rfl, rfl, rfl, rfl, rfl, rfl⟩, fun _ _ => rfl⟩

end Sys2Proof

namespace Sys2Proof.Machine

/-! ### Frame rows (R54 to R57) -/

/-- The latch of an address line that no step drives is left as it was. -/
theorem Runs.latch_undriven {ops : List MicroOp} {s t : State} (h : Runs ops s t) {k : Line} (hk : k ≠ .cs)
    (hops : ∀ v, MicroOp.drive k v ∉ ops) : t.latch k = s.latch k := by
  induction h with
  | build _ ih => simpa using ih fun v hv => hops v (List.mem_cons_of_mem _ hv)
  | write_ok _ _ ih => simpa using ih fun v hv => hops v (List.mem_cons_of_mem _ hv)
  | @drive_ok l v ops s t as _ _ ih =>
    have hl : k ≠ l := fun hl => hops v (by simp [hl])
    simpa [hl] using ih fun v hv => hops v (List.mem_cons_of_mem _ hv)
  | @drive_fail l v ops s as _ =>
    have hl : k ≠ l := fun hl => hops v (by simp [hl])
    simp [hl]
  | _ => simp [hk]

theorem not_drive_mem_emitFrame {f : Frame} {mode : Mode} {k : Line} (hk : k ≠ .cs) (v : Bool) :
    MicroOp.drive k v ∉ emitFrame f mode := by
  simp [emitFrame, framedTransfer, hk]

theorem build_mem_emitFrame {f k : Frame} {mode : Mode} (h : MicroOp.build k ∈ emitFrame f mode) : k = f := by
  simpa [emitFrame, framedTransfer] using h

/-- Settles O37: a frame row does nothing, or runs steps, of which the lemmas on `Runs` say what they leave unchanged; the
emission itself drives chip-select alone and loads its own frame. -/
theorem frameRowChangesNothingElse : Obligations.FrameRowChangesNothingElse := by
  intro i s t hi h
  obtain hexec | ⟨-, hexec⟩ := exec_frame hi s
  · obtain rfl : s = t := by simpa [hexec] using h
    exact ⟨rfl, rfl, rfl, rfl, rfl, fun _ => rfl, ⟨[], by simp⟩, List.suffix_refl _, fun _ => ⟨rfl, rfl, rfl, .inl rfl⟩⟩
  · have hrun : Runs (emitFrame (frameOfWord (encode i)) (modeOf s.op) ++ s.todo) s t := by
      rw [hexec, Host.Outcome.next.injEq] at h
      exact h ▸ runs_run _ _
    obtain ⟨hg, horder, hrst, hcmds, hop⟩ := hrun.frame
    refine ⟨hg, horder, hrst, hcmds, hop, fun hf => ?_, hrun.trace, hrun.answers, fun htodo => ?_⟩
    · obtain ⟨-, -, hflt, -⟩ | ⟨hph, -⟩ | ⟨-, -, -, hflt, -⟩ := hrun.end
      · exact hflt
      · exact absurd hph hf
      · exact hflt
    · rw [htodo, List.append_nil] at hrun
      have hlatch (k : Line) (hk : k ≠ .cs) : t.latch k = s.latch k := hrun.latch_undriven hk (not_drive_mem_emitFrame hk)
      exact ⟨hlatch .a0 (by decide), hlatch .a1 (by decide), hlatch .a2 (by decide), hrun.fb.imp id build_mem_emitFrame⟩

/-- The emission of a frame whose three answers are `ok` (R117, R118). -/
theorem run_emitFrame_ok {f : Frame} {mode : Mode} {ops : List MicroOp} {s : State} {rest : List Ans}
    (h : s.answers = .ok :: .ok :: .ok :: rest) :
    run (emitFrame f mode ++ ops) s =
      run ops { s with cs := .high, fb := f, trace := s.trace ++ transferEvents f mode, answers := rest } := by
  calc run (emitFrame f mode ++ ops) s
      = run (.drive .cs false :: .write mode :: .drive .cs true :: ops) (s.buildFrame f) := rfl
    _ = _ := by
      rw [run_drive_ok (s := s.buildFrame f) h, run_write_ok rfl, run_drive_ok rfl]
      simp [State.setAnswers, State.setLatch, State.record, State.buildFrame, transferEvents, levelOf]

/-- A frame that is the last thing its operation does: three `ok` answers, and the operation returns (R120). -/
theorem emission_returns {emits : Bool} {f : Frame} {s : State} {rest : List Ans} {op : Op} {mode : Mode}
    (hrun : running s = true) (he : emits = true) (hop : s.op = op) (hmode : modeOf op = mode) (htodo : s.todo = [])
    (h : s.answers = .ok :: .ok :: .ok :: rest) :
    emission emits f s = .next { s with
      cs := .high, fb := f, ph := .ready, res := .ok
      trace := s.trace ++ transferEvents f mode ++ [.ret op .ok]
      answers := rest } := by
  rw [emission_of_emits hrun he, run_emitFrame_ok h, htodo, run_nil, ← hmode, ← hop]
  rfl

theorem emitsRawFrame_iff {op : Op} : emitsRawFrame op = true ↔ op = .cvraw := by
  cases op <;> decide

theorem emitsPolFrame_iff {op : Op} : emitsPolFrame op = true ↔ op = .cvpol := by
  cases op <;> decide

/-- Settles O26: `emission_returns` inside a command, and inside `INIT` the emission followed by the steps left. -/
theorem gateFrameIsEmittedInsideItsOperation : Obligations.GateFrameIsEmittedInsideItsOperation := by
  refine ⟨fun g s rest hp hop htodo h => ?_, fun s rest hp hop h => ?_⟩
  · obtain ⟨hemits, hmode⟩ : emitsGateFrame g s.op = true ∧ modeOf s.op = .susp := by
      simp only [List.mem_cons, List.not_mem_nil, or_false] at hop
      obtain hop | hop | hop := hop <;> rw [hop] <;> exact ⟨rfl, rfl⟩
    exact emission_returns (running_iff.mpr (.inr hp)) hemits rfl hmode htodo h
  · have hemits : emitsGateFrame 0x00 s.op = true := by rw [hop]; rfl
    have hmode : modeOf s.op = .block := by rw [hop]; rfl
    calc exec (.frameGate 0x00) s
        = .next (run (emitFrame (gateFrame 0x00) (modeOf s.op) ++ s.todo) s) :=
          emission_of_emits (running_iff.mpr (.inl hp)) hemits (gateFrame 0x00)
      _ = _ := by rw [run_emitFrame_ok h, hmode]; rfl

/-- Settles O27 by `emission_returns`. -/
theorem rawFrameIsEmittedInsideCvraw : Obligations.RawFrameIsEmittedInsideCvraw := by
  intro ch v s rest hp hop htodo h
  exact emission_returns (running_iff.mpr (.inr hp)) (emitsRawFrame_iff.mpr hop) hop rfl htodo h

/-- Settles O28 by `emission_returns`. -/
theorem polarityFrameIsEmittedInsideCvpol : Obligations.PolarityFrameIsEmittedInsideCvpol := by
  intro p s rest hp hop htodo h
  exact emission_returns (running_iff.mpr (.inr hp)) (emitsPolFrame_iff.mpr hop) hop rfl htodo h

theorem emission_of_silent {s : State} {emits : Bool} (h : running s = false ∨ emits = false) (f : Frame) :
    emission emits f s = .next s := by
  obtain h | h := h <;> simp [emission, h]

/-- Settles O30: in each case no operation runs or it is one that does not emit the format. -/
theorem noFrameOutsideItsOperation : Obligations.NoFrameOutsideItsOperation := by
  refine fun s => ⟨fun g h => ?_, fun g hop hg => ?_, fun ch v h => ?_, fun p h => ?_⟩
  · refine emission_of_silent (h.imp id fun hop => ?_) (gateFrame g)
    simp only [List.mem_cons, List.not_mem_nil, or_false] at hop
    obtain hop | hop | hop := hop <;> rw [hop] <;> rfl
  · have hsilent : emitsGateFrame g s.op = false := by rw [hop]; exact beq_false_of_ne hg
    exact emission_of_silent (.inr hsilent) (gateFrame g)
  · exact emission_of_silent (h.imp id fun hop => Bool.eq_false_iff.mpr (mt emitsRawFrame_iff.mp hop)) (cvRawFrame ch v)
  · exact emission_of_silent (h.imp id fun hop => Bool.eq_false_iff.mpr (mt emitsPolFrame_iff.mp hop)) (cvPolFrame p)

/-! ### Illegal words (R62) -/

/-- Settles O41: the step takes the word and rejects it (`step_of_illegal`). -/
theorem illegalWordIsRejected : Obligations.IllegalWordIsRejected := by
  intro s w ws hr hp hc hd
  rw [step_of_illegal hr hp hc hd]
  simp [reject, takeCommand, hc]

end Sys2Proof.Machine
end

section
/-! SUPPORT and proofs. The construction sequence (40_construction.md): a clean `INIT`, and an `INIT` that meets a `fail`. -/

namespace Sys2Proof.Machine

/-! ### A clean `INIT` (R81, R82) -/

/-- What one sweep entry leaves when its six answers are `ok` (R81, R119). -/
def swept (s : State) (a : GateAddr) : State :=
  { s with
    cs := .high
    a0 := levelOf (gatePattern a).l0
    a1 := levelOf (gatePattern a).l1
    a2 := levelOf (gatePattern a).l2
    fb := gateFrame 0x00
    trace := s.trace ++ (addrEvents s.order (gatePattern a) ++ transferEvents (gateFrame 0x00) .block)
    answers := s.answers.drop 6 }

theorem run_sweepWrite_ok {a : GateAddr} {ops : List MicroOp} {s : State} {as : List Ans}
    (h : s.answers = List.replicate 6 .ok ++ as) : run (sweepWrite s.order a ++ ops) s = run ops (swept s a) := by
  rw [sweepWrite, run_memWrite_ok (as := as) h]
  simp [swept, addrEvents, transferEvents, h]

/-- A sweep over any addresses, with six `ok` answers for each. -/
theorem run_sweep_ok {order : DriveOrder} {addrs : List GateAddr} {s : State} {rest : List Ans} (horder : s.order = order)
    (h : s.answers = List.replicate (6 * addrs.length) .ok ++ rest) :
    run (addrs.flatMap (sweepWrite order)) s = complete (addrs.foldl swept s) := by
  subst horder
  induction addrs generalizing s with
  | nil => rfl
  | cons a addrs ih =>
    have hsix : s.answers = List.replicate 6 .ok ++ (List.replicate (6 * addrs.length) .ok ++ rest) := by
      rw [h, List.length_cons, Nat.mul_succ, Nat.add_comm, List.replicate_add, List.append_assoc]
    have hrest : (swept s a).answers = List.replicate (6 * addrs.length) .ok ++ rest := by simp [swept, hsix]
    calc run ((a :: addrs).flatMap (sweepWrite s.order)) s
        = run (sweepWrite s.order a ++ addrs.flatMap (sweepWrite s.order)) s := by rw [List.flatMap_cons]
      _ = run (addrs.flatMap (sweepWrite s.order)) (swept s a) := run_sweepWrite_ok hsix
      _ = complete (addrs.foldl swept (swept s a)) := ih hrest

/-- `INIT` whose chip-select drive is answered `ok` goes on with the sweep (R81). -/
theorem startInit_ok {s : State} {as : List Ans} (h : s.answers = .ok :: as) :
    startInit s = run (sweepOrder.flatMap (sweepWrite s.order))
      { s with cs := .high, ph := .init, op := .init, trace := s.trace ++ [.pin .cs true .ok], answers := as } :=
  run_drive_ok (s := { s with ph := .init, op := .init }) h

/-- Settles O45: the chip-select drive (`startInit_ok`), then `run_sweep_ok` over the four gate addresses. -/
theorem cleanInitSweepsTheGateAddresses : Obligations.CleanInitSweepsTheGateAddresses := by
  intro s rest hr hp h
  have hinit := (startInit_ok (as := List.replicate 24 .ok ++ rest) h).trans (run_sweep_ok rfl rfl)
  rw [step_of_unbuilt hr hp, hinit]
  simp [complete, swept, sweepOrder, initEvents, gateFrame, gatePattern, levelOf]

/-! ### The first `fail` of a run (R113, R131, R132) -/

/-- The pin and bus events of a step list when every answer is `ok`, `fb` being the frame register at its start. -/
def okEvents : Frame → List MicroOp → List Event
  | _, [] => []
  | fb, .drive l v :: ops => .pin l v .ok :: okEvents fb ops
  | _, .build f :: ops => okEvents f ops
  | fb, .write mode :: ops => .bus fb mode .ok :: okEvents fb ops
  | _, .cleanUp :: _ => []

/-- Whether an event is a bus write. -/
def Event.isBus : Event → Bool
  | .pin _ _ _ => false
  | .bus _ _ _ => true
  | .ret _ _ => false

/-- `t` is `s` after the pin and bus events `es` of the running operation, `rest` being the answers behind them. -/
structure Advanced (s : State) (es : List Event) (rest : List Ans) (t : State) : Prop where
  trace : t.trace = s.trace ++ es
  answers : t.answers = rest
  g : t.g = s.g
  ph : t.ph = s.ph
  flt : t.flt = s.flt
  op : t.op = s.op

theorem Advanced.trans {s t u : State} {es es' : List Event} {as bs : List Ans} (h : Advanced s es as t)
    (h' : Advanced t es' bs u) : Advanced s (es ++ es') bs u where
  trace := by rw [h'.trace, h.trace, List.append_assoc]
  answers := h'.answers
  g := h'.g.trans h.g
  ph := h'.ph.trans h.ph
  flt := h'.flt.trans h.flt
  op := h'.op.trans h.op

theorem advanced_buildFrame (f : Frame) (s : State) : Advanced s [] s.answers (s.buildFrame f) := by
  constructor <;> simp

theorem advanced_drive (l : Line) (v : Bool) (r : Ans) (level : Level) (as : List Ans) (s : State) :
    Advanced s [.pin l v r] as (((s.setAnswers as).setLatch l level).record (.pin l v r)) := by
  constructor <;> simp

theorem advanced_write (mode : Mode) (r : Ans) (as : List Ans) (s : State) :
    Advanced s [.bus s.fb mode r] as ((s.setAnswers as).record (.bus s.fb mode r)) := by
  constructor <;> simp

/-- A run whose first `fail` answers its event `e` at place `k`: the events before it happen, then `e` fails, and the run ends
in the clean-up drive when `e` is a bus write and in `PinFailure` when it is a drive. -/
theorem run_first_fail {ops : List MicroOp} {s : State} {k : Nat} {rest : List Ans} {e : Event}
    (hans : s.answers = List.replicate k .ok ++ .fail :: rest) (he : (okEvents s.fb ops)[k]? = some e) :
    ∃ t, Advanced s ((okEvents s.fb ops).take k ++ [failing e]) rest t ∧
      run ops s = if e.isBus then cleanUp t else raise .pin t := by
  induction ops generalizing s k with
  | nil => simp [okEvents] at he
  | cons op ops ih =>
    cases op with
    | build f =>
      obtain ⟨t, ht, hrun⟩ := ih (s := s.buildFrame f) hans he
      exact ⟨t, (advanced_buildFrame f s).trans ht, hrun⟩
    | drive l v =>
      cases k with
      | zero =>
        obtain rfl : Event.pin l v .ok = e := by simpa [okEvents] using he
        exact ⟨_, advanced_drive l v .fail .x rest s, run_drive_fail hans⟩
      | succ k =>
        have hnext := advanced_drive l v .ok (levelOf v) (List.replicate k .ok ++ .fail :: rest) s
        obtain ⟨t, ht, hrun⟩ := ih hnext.answers (by simpa [okEvents] using he)
        exact ⟨t, by simpa [okEvents] using hnext.trans ht, (run_drive_ok hans).trans hrun⟩
    | write mode =>
      cases k with
      | zero =>
        obtain rfl : Event.bus s.fb mode .ok = e := by simpa [okEvents] using he
        exact ⟨_, advanced_write mode .fail rest s, run_write_fail hans⟩
      | succ k =>
        have hnext := advanced_write mode .ok (List.replicate k .ok ++ .fail :: rest) s
        obtain ⟨t, ht, hrun⟩ := ih hnext.answers (by simpa [okEvents] using he)
        exact ⟨t, by simpa [okEvents] using hnext.trans ht, (run_write_ok hans).trans hrun⟩
    | cleanUp => simp [okEvents] at he

/-! ### `INIT` that meets a `fail` (R83) -/

theorem okEvents_initSteps (fb : Frame) (order : DriveOrder) : okEvents fb (initSteps order) = initEvents order := by
  cases order <;> rfl

/-- Of the 25 places of `INIT`, the bus writes are 5, 11, 17 and 23. -/
theorem initEvents_map_isBus (order : DriveOrder) :
    (initEvents order).map Event.isBus = (List.range 25).map (· % 6 == 5) := by
  cases order <;> rfl

theorem exists_initEvent (order : DriveOrder) {k : Nat} (hk : k < 25) :
    ∃ e, (initEvents order)[k]? = some e ∧ e.isBus = (k % 6 == 5) := by
  have h : ((initEvents order).map Event.isBus)[k]? = some (k % 6 == 5) := by simp [initEvents_map_isBus, hk]
  simpa using h

/-- Settles O46: `run_first_fail` on the step list of `INIT`; the clean-up drive is answered or waits. -/
theorem initEndsAtItsFirstFailure : Obligations.InitEndsAtItsFirstFailure := by
  intro s k rest hr hp hflt hk hans es
  obtain ⟨e, he, hbus⟩ := exists_initEvent s.order hk
  obtain ⟨t, ht, hrun⟩ := run_first_fail (ops := initSteps s.order) (s := { s with ph := .init, op := .init }) hans
    (by rwa [okEvents_initSteps])
  have hstep : step s = .next (if k % 6 = 5 then cleanUp t else raise .pin t) := by
    rw [step_of_unbuilt hr hp, startInit, hrun, hbus]
    simp
  have htrace : t.trace = es := by
    rw [ht.trace, okEvents_initSteps]
    simp [es, List.take_one, he]
  have hfault (x : Cause) : raisedFault t.flt x = faultOf x := by rw [ht.flt, hflt]; rfl
  refine ⟨fun hpin => ?_, fun hwrite q rest' hrest => ?_, fun hwrite hrest => ?_⟩
  · rw [if_neg hpin] at hstep
    exact ⟨_, hstep, rfl, hfault .pin, rfl, ht.g, by simp [htrace, ht.op, fatalOf]⟩
  · rw [if_pos hwrite, cleanUp_answers (ht.answers.trans hrest)] at hstep
    exact ⟨_, hstep, rfl, hfault .bus, rfl, ht.g, rfl, by simp [htrace, ht.op, fatalOf]⟩
  · rw [if_pos hwrite, cleanUp_waits (ht.answers.trans hrest)] at hstep
    exact ⟨_, hstep, ht.ph, rfl, ht.g, htrace⟩

end Sys2Proof.Machine
end

section
/-! SUPPORT and proofs. The gate commands (41_gate.md): the one cached byte a command changes, whatever the answers are, the
laws of `GHI` and `GLO` on the cache, and what a command that returns has sent. -/

namespace Sys2Proof.Machine

/-! ### A command that returns (R120, R121) -/

/-- `exec_row`, with what the run can do as `Runs`. -/
theorem runs_of_exec {i : Instr} {r : CommandRow} {s t : State} (hrow : commandRow i s = some r) (hp : s.ph = .ready)
    (h : exec i s = .next t) :
    Runs (memWrite s.order r.pattern r.frame r.mode) { s with ph := .busy, op := r.op, g := r.g } t := by
  rw [exec_row hrow hp, Host.Outcome.next.injEq] at h
  exact h ▸ runs_run _ _

/-- A command in `READY` whose six answers are `ok` returns. -/
theorem exec_returned {i : Instr} {r : CommandRow} {s : State} {rest : List Ans} (hrow : commandRow i s = some r)
    (hp : s.ph = .ready) (h : s.answers = .ok :: .ok :: .ok :: .ok :: .ok :: .ok :: rest) :
    exec i s = .next (returned r rest s) := by
  have hrun := run_memWrite_ok (p := r.pattern) (f := r.frame) (mode := r.mode) (rest := [])
    (s := { s with ph := .busy, op := r.op, g := r.g }) h
  rw [List.append_nil, run_nil] at hrun
  rw [exec_row hrow hp, hrun]
  rfl

/-- A command that ends in `READY` has returned, so it met six `ok` answers. -/
theorem eq_returned_of_ready {i : Instr} {r : CommandRow} {s t : State} (hrow : commandRow i s = some r)
    (hp : s.ph = .ready) (h : exec i s = .next t) (ht : t.ph = .ready) : t = returned r (s.answers.drop 6) s := by
  have hclean := (runs_of_exec hrow hp h).ready (by simp) ht
  rw [cleanRun_memWrite r.pattern r.frame r.mode { s with ph := .busy, op := r.op, g := r.g }] at hclean
  exact hclean

/-- Settles O21: the row of `SETG`, returned. -/
theorem setgReplacesTheMaskAndSendsIt : Obligations.SetgReplacesTheMaskAndSendsIt :=
  fun _ _ _ _ hp h => exec_returned rfl hp h

/-- Settles O22: the row of `GHI`, returned. -/
theorem ghiSetsTheBitAndSendsTheMask : Obligations.GhiSetsTheBitAndSendsTheMask :=
  fun _ _ _ _ hp h => exec_returned rfl hp h

/-- Settles O23: the row of `GLO`, returned. -/
theorem gloClearsTheBitAndSendsTheMask : Obligations.GloClearsTheBitAndSendsTheMask :=
  fun _ _ _ _ hp h => exec_returned rfl hp h

/-! ### The attempted mask (R90 to R94) -/

/-- A gate command at the address `a`. -/
def IsGateCommand (a : GateAddr) (i : Instr) : Prop :=
  (∃ m, i = .setg a m) ∨ (∃ ch, i = .ghi a ch) ∨ ∃ ch, i = .glo a ch

theorem isGateCommand_setg (a : GateAddr) (m : Byte) : IsGateCommand a (.setg a m) := .inl ⟨m, rfl⟩
theorem isGateCommand_ghi (a : GateAddr) (ch : GateChan) : IsGateCommand a (.ghi a ch) := .inr (.inl ⟨ch, rfl⟩)
theorem isGateCommand_glo (a : GateAddr) (ch : GateChan) : IsGateCommand a (.glo a ch) := .inr (.inr ⟨ch, rfl⟩)

/-- The mask an instruction attempts where `b` is cached (R91 to R93); it is `b` if the instruction is no gate command. -/
def attemptedMask (i : Instr) (b : Byte) : Byte :=
  match i with
  | .setg _ m => m
  | .ghi _ ch => b ||| gateBit ch
  | .glo _ ch => b &&& ~~~gateBit ch
  | .cvraw _ _ _ => b
  | .cvpol _ _ => b
  | .frameGate _ => b
  | .frameCvraw _ _ => b
  | .frameCvpol _ => b

/-- The three gate commands have one row in common: the attempted mask goes into the cache and into the frame (R121). -/
theorem commandRow_gate {a : GateAddr} {i : Instr} (hi : IsGateCommand a i) (s : State) :
    ∃ op, commandRow i s = some ⟨op, gatePattern a, ⟨0x04, 0x00, attemptedMask i (s.gate a), 0x00⟩, .susp,
      (s.setGate a (attemptedMask i (s.gate a))).g⟩ := by
  obtain ⟨m, rfl⟩ | ⟨ch, rfl⟩ | ⟨ch, rfl⟩ := hi
  · exact ⟨.setg, rfl⟩
  · exact ⟨.ghi, rfl⟩
  · exact ⟨.glo, rfl⟩

/-- The cache after a gate command, whatever the answers are: its row's, since a run leaves the cache alone. -/
theorem exec_gate_g {a : GateAddr} {i : Instr} {s t : State} (hi : IsGateCommand a i) (hp : s.ph = .ready)
    (h : exec i s = .next t) : t.g = (s.setGate a (attemptedMask i (s.gate a))).g := by
  obtain ⟨op, hrow⟩ := commandRow_gate hi s
  obtain ⟨hg, -⟩ := (runs_of_exec hrow hp h).frame
  exact hg

theorem exec_gate_same {a : GateAddr} {i : Instr} {s t : State} (hi : IsGateCommand a i) (hp : s.ph = .ready)
    (h : exec i s = .next t) : t.gate a = attemptedMask i (s.gate a) := by
  rw [gate_of_g (exec_gate_g hi hp h), gate_setGate_same]

theorem exec_gate_other {a b : GateAddr} {i : Instr} {s t : State} (hi : IsGateCommand a i) (hp : s.ph = .ready)
    (h : exec i s = .next t) (hb : b ≠ a) : t.gate b = s.gate b := by
  rw [gate_of_g (exec_gate_g hi hp h), gate_setGate_other _ _ _ _ hb]

/-- Settles O33: what `exec_gate_same` and `exec_gate_other` say, for each of the three commands. -/
theorem cacheHoldsTheAttemptedMask : Obligations.CacheHoldsTheAttemptedMask := by
  intro a m ch s t hp
  have hgate {i : Instr} (hi : IsGateCommand a i) (h : exec i s = .next t) :
      t.gate a = attemptedMask i (s.gate a) ∧ ∀ b, b ≠ a → t.gate b = s.gate b :=
    ⟨exec_gate_same hi hp h, fun _ => exec_gate_other hi hp h⟩
  exact ⟨hgate (isGateCommand_setg a m), hgate (isGateCommand_ghi a ch), hgate (isGateCommand_glo a ch)⟩

/-- Settles O35: a command that ends in `READY` returned, with the frame of the attempted mask, which is what `G[a]` holds. -/
theorem gateSuccessMeansTheCachedMaskWasSent : Obligations.GateSuccessMeansTheCachedMaskWasSent := by
  intro a i s t hp hi h ht
  obtain ⟨op, hrow⟩ := commandRow_gate hi s
  rw [exec_gate_same hi hp h, eq_returned_of_ready hrow hp h ht]
  exact ⟨rfl, op, rfl⟩

/-! ### `GHI` and `GLO` bit by bit (R59, R92, R93) -/

theorem gateBit_getLsbD (ch : GateChan) (j : Nat) : (gateBit ch).getLsbD j = decide (j = (gateChanIndex ch).toNat) := by
  have hlt : (gateChanIndex ch).toNat < 8 := (gateChanIndex ch).isLt
  rw [gateBit, ← BitVec.twoPow_eq, BitVec.getLsbD_twoPow]
  simp [hlt, eq_comm]

theorem attemptedMask_ghi_getLsbD (a : GateAddr) (ch : GateChan) (b : Byte) (j : Nat) :
    (attemptedMask (.ghi a ch) b).getLsbD j = (decide (j = (gateChanIndex ch).toNat) || b.getLsbD j) := by
  rw [attemptedMask, BitVec.getLsbD_or, gateBit_getLsbD, Bool.or_comm]

theorem attemptedMask_glo_getLsbD (a : GateAddr) (ch : GateChan) (b : Byte) {j : Nat} (hj : j < 8) :
    (attemptedMask (.glo a ch) b).getLsbD j = (!decide (j = (gateChanIndex ch).toNat) && b.getLsbD j) := by
  rw [attemptedMask, BitVec.getLsbD_and, BitVec.getLsbD_not, gateBit_getLsbD, Bool.and_comm]
  simp [hj]

/-- Settles O13: the bits of the attempted mask. -/
theorem ghiAndGloChangeOneBit : Obligations.GhiAndGloChangeOneBit := by
  intro a ch s t j hp hj
  refine ⟨fun h => ?_, fun h => ?_⟩
  · rw [exec_gate_same (isGateCommand_ghi a ch) hp h, attemptedMask_ghi_getLsbD]
  · rw [exec_gate_same (isGateCommand_glo a ch) hp h, attemptedMask_glo_getLsbD _ _ _ hj]

/-! ### The laws of `GHI` and `GLO` (R95) -/

theorem gateChanIndex_injective : Function.Injective gateChanIndex :=
  Function.LeftInverse.injective gateChanOf_gateChanIndex

/-- Two channels have no bit in common. -/
theorem gateBit_and_not_gateBit {x y : GateChan} (h : x ≠ y) : gateBit x &&& ~~~gateBit y = gateBit x := by
  refine BitVec.eq_of_getLsbD_eq fun j hj => ?_
  rw [BitVec.getLsbD_and, BitVec.getLsbD_not, gateBit_getLsbD, gateBit_getLsbD]
  by_cases hx : j = (gateChanIndex x).toNat
  · have hy : (gateChanIndex x).toNat ≠ (gateChanIndex y).toNat := fun hxy =>
      h (gateChanIndex_injective (BitVec.eq_of_toNat_eq hxy))
    subst hx
    simp [hy, hj]
  · simp [hx]

section laws

variable (a : GateAddr) (x y : GateChan) (b : Byte)

theorem ghi_ghi_self : attemptedMask (.ghi a x) (attemptedMask (.ghi a x) b) = attemptedMask (.ghi a x) b := by
  simp [attemptedMask, BitVec.or_assoc]

theorem glo_glo_self : attemptedMask (.glo a x) (attemptedMask (.glo a x) b) = attemptedMask (.glo a x) b := by
  simp [attemptedMask, BitVec.and_assoc]

theorem ghi_ghi_comm :
    attemptedMask (.ghi a y) (attemptedMask (.ghi a x) b) = attemptedMask (.ghi a x) (attemptedMask (.ghi a y) b) := by
  simp only [attemptedMask, BitVec.or_assoc, BitVec.or_comm (gateBit x)]

theorem glo_glo_comm :
    attemptedMask (.glo a y) (attemptedMask (.glo a x) b) = attemptedMask (.glo a x) (attemptedMask (.glo a y) b) := by
  simp only [attemptedMask, BitVec.and_assoc, BitVec.and_comm (~~~gateBit x)]

theorem glo_ghi_self : attemptedMask (.glo a x) (attemptedMask (.ghi a x) b) = attemptedMask (.glo a x) b := by
  simp [attemptedMask, BitVec.and_or_distrib_right, BitVec.and_not_self]

theorem ghi_glo_self : attemptedMask (.ghi a x) (attemptedMask (.glo a x) b) = attemptedMask (.ghi a x) b := by
  refine BitVec.eq_of_getLsbD_eq fun j hj => ?_
  simp only [attemptedMask_glo_getLsbD _ _ _ hj, attemptedMask_ghi_getLsbD]
  cases decide (j = (gateChanIndex x).toNat) <;> simp

theorem glo_ghi_comm (h : x ≠ y) :
    attemptedMask (.glo a y) (attemptedMask (.ghi a x) b) = attemptedMask (.ghi a x) (attemptedMask (.glo a y) b) := by
  simp only [attemptedMask, BitVec.and_or_distrib_right, gateBit_and_not_gateBit h]

end laws

theorem setGate_g_of_g {s t : State} {a : GateAddr} {v : Byte} (h : t.g = (s.setGate a v).g) (w : Byte) :
    (t.setGate a w).g = (s.setGate a w).g := by
  cases a <;> simp [State.setGate, h]

/-- The cache after two gate commands at one address: a second one overwrites the byte of the first. -/
theorem exec_gate_gate_g {a : GateAddr} {i j : Instr} {s t u : State} (hi : IsGateCommand a i) (hj : IsGateCommand a j)
    (hs : s.ph = .ready) (ht : t.ph = .ready) (hst : exec i s = .next t) (htu : exec j t = .next u) :
    u.g = (s.setGate a (attemptedMask j (attemptedMask i (s.gate a)))).g := by
  rw [exec_gate_g hj ht htu, setGate_g_of_g (exec_gate_g hi hs hst), exec_gate_same hi hs hst]

/-- Settles O34: both caches are the old one with one byte replaced, and the laws of `attemptedMask` say that it is the same. -/
theorem gateCacheLaws : Obligations.GateCacheLaws := by
  intro a x y i j s t u t' u' hs ht ht' hst htu hst' htu'
  have hghi := isGateCommand_ghi a
  have hglo := isGateCommand_glo a
  have hcomm (hi : IsGateCommand a i) (hj : IsGateCommand a j)
      (h : attemptedMask j (attemptedMask i (s.gate a)) = attemptedMask i (attemptedMask j (s.gate a))) : u.g = u'.g := by
    rw [exec_gate_gate_g hi hj hs ht hst htu, exec_gate_gate_g hj hi hs ht' hst' htu', h]
  refine ⟨?ghi_idempotent, ?glo_idempotent, ?ghi_ghi, ?glo_glo, ?ghi_glo, ?last_wins⟩
  case ghi_idempotent =>
    rintro rfl rfl
    rw [exec_gate_gate_g (hghi x) (hghi x) hs ht hst htu, exec_gate_g (hghi x) hs hst, ghi_ghi_self]
  case glo_idempotent =>
    rintro rfl rfl
    rw [exec_gate_gate_g (hglo x) (hglo x) hs ht hst htu, exec_gate_g (hglo x) hs hst, glo_glo_self]
  case ghi_ghi =>
    rintro rfl rfl
    exact hcomm (hghi x) (hghi y) (ghi_ghi_comm a x y _)
  case glo_glo =>
    rintro rfl rfl
    exact hcomm (hglo x) (hglo y) (glo_glo_comm a x y _)
  case ghi_glo =>
    rintro rfl rfl hxy
    exact hcomm (hghi x) (hglo y) (glo_ghi_comm a x y _ hxy)
  case last_wins =>
    rintro rfl rfl
    constructor
    · rw [exec_gate_gate_g (hghi x) (hglo x) hs ht hst htu, exec_gate_g (hglo x) hs hst', glo_ghi_self]
    · rw [exec_gate_gate_g (hglo x) (hghi x) hs ht' hst' htu', exec_gate_g (hghi x) hs hst, ghi_glo_self]

end Sys2Proof.Machine
end

section
/-! SUPPORT and proofs. The CV commands (42_cv.md): what a CV raw frame tells of its operands, and the two commands whose six
answers are `ok`. -/

namespace Sys2Proof

/-- Settles O9: channel and value are read back from the number of a CV raw frame (`channel_of_cvRawFrame`,
`value_of_cvRawFrame`), so equal frames have equal operands. The overlap-free byte 0 rests on `CV_RAW_BASE = 0x00` (R104). -/
theorem cvRawFrameDeterminesChannelAndValue : Obligations.CvRawFrameDeterminesChannelAndValue := by
  intro ch ch' v v' h
  constructor
  · rw [← channel_of_cvRawFrame ch v, h, channel_of_cvRawFrame]
  · rw [← value_of_cvRawFrame ch v, h, value_of_cvRawFrame]

/-- The CV raw frame with byte 0 as code and top nibble alone, as `CV_RAW_BASE` is 0x00 (decision D6). -/
theorem cvRawFrame_eq_slices (ch : CvChan) (v : BitVec 16) :
    cvRawFrame ch v =
      ⟨cvCode ch ||| (v.extractLsb' 12 4).setWidth 8, v.extractLsb' 4 8, v.extractLsb' 0 4 ++ 0#4, 0x00⟩ := by
  rw [cvRawFrame, show cvRawBase = 0#8 from rfl, BitVec.zero_or]

end Sys2Proof

namespace Sys2Proof.Machine

/-- Settles O24: the row of `CVRAW`, returned, its frame written as slices. -/
theorem cvrawSendsTheRawFrame : Obligations.CvrawSendsTheRawFrame := by
  intro c ch v s rest hp h
  rw [← cvRawFrame_eq_slices]
  exact exec_returned rfl hp h

/-- Settles O25: the row of `CVPOL`, returned. -/
theorem cvpolSendsThePolarityFrame : Obligations.CvpolSendsThePolarityFrame :=
  fun _ _ _ _ hp h => exec_returned rfl hp h

end Sys2Proof.Machine
end

section
/-! SUPPORT and proofs. The statements of 43_address_and_framing.md: the wire discipline as an invariant of every run, the
primitives, commands that fail or wait, and answers that come late. -/

namespace Sys2Proof.Machine

/-! ### What may follow at a position (R123)

`positioned op fb w ops` read step by step: the event the step records is one that `wireStep` allows, and the steps behind it
fit where the wires stand then. -/

section position

variable {op : Op} {fb : Frame} {w : Wire} {ops : List MicroOp}

theorem positioned_nil (h : positioned op fb w [] = true) : w = .idle .none := by
  cases w <;> simp_all [positioned, idleSteps]

/-- The idle steps after `d` fit a chip-select that is high with the lines of `d` driven, whatever the frame register holds. -/
theorem positioned_idle {d : Driven} (h : idleSteps op d ops = true) : positioned op fb (.idle d) ops = true := by
  unfold positioned
  split <;> simp_all [idleSteps, Driven.drive]

theorem wireStep_drive {d d' : Driven} {l : Line} (h : d.drive l = some d') (v : Bool) (r : Ans) :
    wireStep (.idle d) (.pin l v r) = some (Wire.after (.idle d') r) := by
  cases l with
  | cs => simp [Driven.drive] at h
  | a0 => simp [wireStep, h]
  | a1 => simp [wireStep, h]
  | a2 => simp [wireStep, h]

/-- A drive that fits is one that `wireStep` allows; the cases are the lines of `positioned`. -/
theorem positioned_drive {l : Line} {v : Bool} (h : positioned op fb w (.drive l v :: ops) = true) :
    ∃ w', positioned op fb w' ops = true ∧ ∀ r, wireStep w (.pin l v r) = some (Wire.after w' r) := by
  generalize hops : MicroOp.drive l v :: ops = steps at h
  unfold positioned at h
  split at h <;> cases hops
  case h_1.refl => exact ⟨_, positioned_idle h, fun _ => rfl⟩
  case h_2.refl =>
    simp only [Bool.and_eq_true, beq_iff_eq] at h
    obtain ⟨⟨rfl, hlegal⟩, hrest⟩ := h
    exact ⟨.selected, by simp [positioned, hlegal, hrest], fun _ => rfl⟩
  case h_3.refl =>
    rw [idleSteps] at h
    split at h
    · cases h
    · next d' hd => exact ⟨_, positioned_idle h, wireStep_drive hd v⟩
  case h_5.refl => exact ⟨_, positioned_idle h, fun _ => rfl⟩
  case h_7.refl => cases h

theorem positioned_build {f : Frame} (h : positioned op fb w (.build f :: ops) = true) : positioned op f w ops = true := by
  generalize hops : MicroOp.build f :: ops = steps at h
  unfold positioned at h
  split at h <;> cases hops
  case h_3.refl =>
    unfold idleSteps at h
    split at h <;> simp_all [positioned]
  case h_7.refl => cases h

theorem positioned_write {mode : Mode} (h : positioned op fb w (.write mode :: ops) = true) :
    w = .selected ∧ legalWrite op fb mode = true ∧ positioned op fb .written ops = true := by
  generalize hops : MicroOp.write mode :: ops = steps at h
  unfold positioned at h
  split at h <;> cases hops
  case h_3.refl => cases h
  case h_4.refl =>
    obtain ⟨hlegal, hrest⟩ := Bool.and_eq_true_iff.mp h
    exact ⟨rfl, hlegal, hrest⟩
  case h_7.refl => cases h

theorem positioned_cleanUp (h : positioned op fb w (.cleanUp :: ops) = true) : w = .failed ∧ ops = [] := by
  generalize hops : MicroOp.cleanUp :: ops = steps at h
  unfold positioned at h
  split at h <;> cases hops
  case h_3.refl => cases h
  case h_6.refl => exact ⟨rfl, rfl⟩
  case h_7.refl => cases h

theorem positioned_initSteps (fb : Frame) (order : DriveOrder) : positioned .init fb .start (initSteps order) = true := by
  cases order <;> rfl

theorem positioned_memWrite {f : Frame} {mode : Mode} (h : legalWrite op f mode = true) (fb : Frame) (order : DriveOrder)
    (p : Pattern) : positioned op fb (.idle .none) (memWrite order p f mode) = true := by
  refine positioned_idle ?_
  cases order <;>
    simp [memWrite, assertAddr, driveLines, emitFrame, framedTransfer, idleSteps, Driven.drive, Driven.none, Driven.all, h]

end position

/-! ### The wire discipline along a run (R123) -/

/-- A trace that keeps the discipline, with the wires at `w` after it, and whose bus writes are each one that some operation
may make. -/
structure WireAt (w : Wire) (t : List Event) : Prop where
  wires : wireOfTrace t = some w
  legal : ∀ f mode r, Event.bus f mode r ∈ t → ∃ op, legalWrite op f mode = true

theorem WireInv.exists_wireAt {s : State} (h : WireInv s) : ∃ w, WireAt w s.trace ∧ wireFits w s = true := by
  obtain ⟨⟨w, hw, hfits⟩, hlegal⟩ := h
  exact ⟨w, ⟨hw, hlegal⟩, hfits⟩

section

variable {w w' : Wire} {t : List Event}

theorem WireAt.wireInv {s : State} (h : WireAt w s.trace) (hfits : wireFits w s = true) : WireInv s :=
  ⟨⟨w, h.wires, hfits⟩, h.legal⟩

theorem WireAt.append (h : WireAt w t) {e : Event} (hstep : wireStep w e = some w')
    (he : ∀ f mode r, e = .bus f mode r → ∃ op, legalWrite op f mode = true) : WireAt w' (t ++ [e]) where
  wires := by rw [wireOfTrace_append, h.wires, Option.bind_some, hstep]
  legal f mode r hmem := by
    obtain hmem | hmem := List.mem_append.mp hmem
    · exact h.legal f mode r hmem
    · exact he f mode r (List.mem_singleton.mp hmem).symm

theorem WireAt.pin (h : WireAt w t) {l : Line} {v : Bool} {r : Ans} (hstep : wireStep w (.pin l v r) = some w') :
    WireAt w' (t ++ [.pin l v r]) := h.append hstep nofun

theorem WireAt.bus (h : WireAt w t) {op : Op} {f : Frame} {mode : Mode} {r : Ans} (hlegal : legalWrite op f mode = true)
    (hstep : wireStep w (.bus f mode r) = some w') : WireAt w' (t ++ [.bus f mode r]) :=
  h.append hstep fun _ _ _ he => by cases he; exact ⟨op, hlegal⟩

theorem WireAt.ret (h : WireAt w t) {op : Op} {res : Result} (hstep : wireStep w (.ret op res) = some w') :
    WireAt w' (t ++ [.ret op res]) := h.append hstep nofun

/-- After a failure the `RET` is all that is left. -/
theorem WireAt.raise {s : State} (h : WireAt .dead s.trace) (x : Cause) : WireInv (raise x s) :=
  WireAt.wireInv (w := .dead) (h.ret rfl) rfl

theorem wireFits_running {s : State} (hrun : running s = true) : wireFits w s = positioned s.op s.fb w s.todo := by
  obtain hp | hp := running_iff.mp hrun <;> simp [wireFits, hp]

/-- A run that waits at a position that continues the trace. -/
theorem WireAt.suspend {s : State} (h : WireAt w s.trace) (hrun : running s = true) {ops : List MicroOp}
    (hpos : positioned s.op s.fb w ops = true) : WireInv (suspend ops s) :=
  WireAt.wireInv (s := Machine.suspend ops s) h ((wireFits_running (s := Machine.suspend ops s) hrun).trans hpos)

/-- A run from a position that continues the trace keeps the discipline. -/
theorem Runs.wireInv {ops : List MicroOp} {s t : State} (h : Runs ops s t) (hrun : running s = true)
    (hw : WireAt w s.trace) (hpos : positioned s.op s.fb w ops = true) : WireInv t := by
  induction h generalizing w with
  | nil s =>
    obtain rfl := positioned_nil hpos
    exact WireAt.wireInv (w := .idle .none) (hw.ret rfl) rfl
  | wait => exact hw.suspend hrun hpos
  | build _ ih => exact ih hrun hw (positioned_build hpos)
  | @drive_ok l v ops s t as _ _ ih =>
    obtain ⟨w', hpos', hstep⟩ := positioned_drive hpos
    exact ih (by simpa [running] using hrun) (by simpa using hw.pin (w' := w') (hstep .ok)) (by simpa using hpos')
  | drive_fail =>
    obtain ⟨w', -, hstep⟩ := positioned_drive hpos
    exact WireAt.raise (by simpa using hw.pin (w' := .dead) (hstep .fail)) .pin
  | write_ok _ _ ih =>
    obtain ⟨rfl, hlegal, hpos'⟩ := positioned_write hpos
    exact ih hrun (hw.bus hlegal rfl) hpos'
  | write_fail_wait =>
    obtain ⟨rfl, hlegal, -⟩ := positioned_write hpos
    have hfailed := hw.bus (w' := .failed) (r := .fail) hlegal rfl
    exact WireAt.suspend (s := State.record (State.setAnswers _ []) _) (ops := [.cleanUp]) hfailed hrun rfl
  | write_fail =>
    obtain ⟨rfl, hlegal, -⟩ := positioned_write hpos
    have hfailed := hw.bus (w' := .failed) (r := .fail) hlegal rfl
    exact WireAt.raise (by simpa using hfailed.pin rfl) .bus
  | cleanUp_wait =>
    obtain ⟨rfl, rfl⟩ := positioned_cleanUp hpos
    exact hw.suspend hrun hpos
  | cleanUp =>
    obtain ⟨rfl, rfl⟩ := positioned_cleanUp hpos
    exact WireAt.raise (by simpa using hw.pin rfl) .bus

end

/-- Settles O50: the phases and the readings of the trace are kept on their own (`stepKeepsThePhaseInvariant`,
`stepKeepsTheTraceExplainingTheLatches`); the wires by `Runs.wireInv`, as the step list that begins or goes on fits where
they stand. -/
theorem stepKeepsTheInvariant : Obligations.StepKeepsTheInvariant := by
  intro s t hs h
  refine ⟨stepKeepsThePhaseInvariant s t hs.phase h, stepKeepsTheTraceExplainingTheLatches s t hs.trace h, ?_⟩
  obtain ⟨w, hw, hfits⟩ := hs.wire.exists_wireAt
  obtain ⟨-, rfl⟩ | ⟨-, hp, rfl⟩ | ⟨-, hrun, rfl⟩ | ⟨-, -, rfl⟩ | ⟨-, hp, -, rfl⟩ |
    ⟨-, hp, _, ws, i, r, -, -, hrow, rfl⟩ := step_cases h
  · exact (inv_hardReset s).wire
  · obtain rfl : w = .start := by simpa [wireFits, hp] using hfits
    exact (runs_run _ _).wireInv rfl hw (positioned_initSteps s.fb s.order)
  · exact (runs_run _ _).wireInv hrun hw ((wireFits_running hrun).symm.trans hfits)
  · exact hs.wire
  · obtain rfl : w = .idle .none := by simpa [wireFits, hp] using hfits
    exact WireAt.wireInv (w := .idle .none) (s := reject (takeCommand s)) (hw.ret rfl) (by simp [wireFits, hp])
  · obtain rfl : w = .idle .none := by simpa [wireFits, hp] using hfits
    obtain ⟨-, -, -, hlegal⟩ := commandRow_legal hrow
    exact (runs_run _ _).wireInv rfl hw (positioned_memWrite hlegal s.fb s.order r.pattern)

/-! ### Where the wires stand and the latches (R123, R178) -/

theorem levelOf_ne_x (v : Bool) : levelOf v ≠ .x := by cases v <;> decide

/-- What the wires tell of the latches, `v` being the latch of each line: chip-select is high or low, and which address lines
are at a driven level. -/
def Wire.Shows (w : Wire) (v : Line → Level) : Prop :=
  match w with
  | .start | .dead => True
  | .idle d => v .cs = .high ∧ (d.d0 = true → v .a0 ≠ .x) ∧ (d.d1 = true → v .a1 ≠ .x) ∧ (d.d2 = true → v .a2 ≠ .x)
  | .selected | .written | .failed => v .cs = .low ∧ v .a0 ≠ .x ∧ v .a1 ≠ .x ∧ v .a2 ≠ .x

section

variable {w w' : Wire} {v : Line → Level}

/-- What the wires tell after a drive is to be shown for the answer `ok` alone: after a failed drive they tell nothing. -/
theorem Wire.shows_after {r : Ans} (h : r = .ok → w.Shows v) : (w.after r).Shows v := by
  cases r with
  | ok => exact h rfl
  | fail => trivial

theorem Wire.Shows.drive {d d' : Driven} (h : (Wire.idle d).Shows v) {l : Line} (hd : d.drive l = some d') (level : Bool) :
    (Wire.idle d').Shows fun k => latchStep k (v k) (.pin l level .ok) := by
  obtain ⟨hcs, h0, h1, h2⟩ := h
  cases l <;> simp only [Driven.drive, Option.ite_none_left_eq_some, Option.some.injEq, reduceCtorEq] at hd <;>
    obtain ⟨-, rfl⟩ := hd
  · exact ⟨hcs, fun _ => levelOf_ne_x level, h1, h2⟩
  · exact ⟨hcs, h0, fun _ => levelOf_ne_x level, h2⟩
  · exact ⟨hcs, h0, h1, fun _ => levelOf_ne_x level⟩

theorem Wire.Shows.step {e : Event} (h : w.Shows v) (hstep : wireStep w e = some w') :
    w'.Shows fun l => latchStep l (v l) e := by
  unfold wireStep at hstep
  split at hstep <;>
    simp only [Option.some.injEq, Option.map_eq_some_iff, Option.ite_none_right_eq_some, reduceCtorEq] at hstep
  -- the cases are the lines of `wireStep`
  case h_1 | h_9 =>
    subst hstep
    exact Wire.shows_after (by rintro rfl; exact ⟨rfl, nofun, nofun, nofun⟩)
  case h_2 =>
    obtain ⟨rfl, rfl⟩ := hstep
    obtain ⟨-, h0, h1, h2⟩ := h
    exact Wire.shows_after (by rintro rfl; exact ⟨rfl, h0 rfl, h1 rfl, h2 rfl⟩)
  case h_3 | h_4 | h_5 =>
    obtain ⟨d', hd, rfl⟩ := hstep
    exact Wire.shows_after (by rintro rfl; exact h.drive hd _)
  case h_6 =>
    obtain ⟨rfl, rfl⟩ := hstep
    exact h
  case h_7 | h_8 =>
    subst hstep
    exact h
  case h_10 | h_11 =>
    subst hstep
    trivial

end

/-- In a trace that keeps the discipline the latches are as the wires tell. -/
theorem shows_of_wireOfTrace {t : List Event} {w : Wire} (h : wireOfTrace t = some w) : w.Shows fun l => latchOfTrace l t := by
  induction t using List.reverseRecOn generalizing w with
  | nil =>
    obtain rfl : .start = w := by simpa [wireOfTrace] using h
    trivial
  | append_singleton t e ih =>
    rw [wireOfTrace_append, Option.bind_eq_some_iff] at h
    obtain ⟨w₀, hw₀, hstep⟩ := h
    simpa only [latchOfTrace_append] using (ih hw₀).step hstep

/-- Settles O53: the wires of a `READY` block are idle, and then the trace shows a high chip-select. -/
theorem readyMeansChipSelectHigh : Obligations.ReadyMeansChipSelectHigh := by
  intro s hs hp
  obtain ⟨w, hw, hfits⟩ := hs.wire.exists_wireAt
  obtain rfl : w = .idle .none := by simpa [wireFits, hp] using hfits
  obtain ⟨hcs, -⟩ := shows_of_wireOfTrace hw.wires
  exact ⟨(hs.trace.latches .cs).trans hcs, hs.phase.flt_none (by simp [hp]), hs.phase.no_steps (by simp [running, hp])⟩

/-- A bus write happens under chip-select low, before any other. -/
theorem wireStep_bus {w w' : Wire} {f : Frame} {mode : Mode} {r : Ans} (h : wireStep w (.bus f mode r) = some w') :
    w = .selected ∧ (w' = .written ∨ w' = .failed) := by
  cases w <;> cases r <;> simp_all [wireStep]

/-- After a bus write only a drive of chip-select high is allowed. -/
theorem wireStep_after_bus {w w' : Wire} {e : Event} (hw : w = .written ∨ w = .failed) (h : wireStep w e = some w') :
    ∃ q, e = .pin .cs true q := by
  obtain rfl | rfl := hw <;> unfold wireStep at h <;> split at h <;> simp_all

/-- The wires before and after an event of a disciplined trace. -/
theorem wireOfTrace_cons {pre post : List Event} {e : Event} {w : Wire} (h : wireOfTrace (pre ++ e :: post) = some w) :
    ∃ w₀ w₁, wireOfTrace pre = some w₀ ∧ wireStep w₀ e = some w₁ ∧ post.foldlM wireStep w₁ = some w := by
  simpa [wireOfTrace, List.foldlM_append, Option.bind_eq_some_iff] using h

/-- Settles O54: at a bus write the wires are selected, which tells the latches; and the wires it leaves allow nothing but
chip-select high. -/
theorem busWriteHappensWithChipSelectLow : Obligations.BusWriteHappensWithChipSelectLow := by
  intro s pre post f mode r hs htrace
  obtain ⟨w, hw, -⟩ := hs.disciplined
  rw [htrace] at hw
  obtain ⟨w₀, w₁, hpre, hbus, hpost⟩ := wireOfTrace_cons hw
  obtain ⟨rfl, hw₁⟩ := wireStep_bus hbus
  obtain ⟨hcs, h0, h1, h2⟩ := shows_of_wireOfTrace hpre
  refine ⟨hcs, h0, h1, h2, ?_⟩
  rintro e es rfl
  rw [List.foldlM_cons, Option.bind_eq_bind, Option.bind_eq_some_iff] at hpost
  obtain ⟨w₂, hnext, -⟩ := hpost
  exact wireStep_after_bus hw₁ hnext

/-! ### Answers that come late (R113, R43) -/

/-- More answers behind those the environment has given. -/
def moreAnswers (bs : List Ans) (s : State) : State := s.setAnswers (s.answers ++ bs)

/-- A running operation goes on; otherwise nothing. -/
def goOn (s : State) : State := if running s then resume s else s

theorem moreAnswers_answers {s : State} {r : Ans} {as : List Ans} (h : s.answers = r :: as) (bs : List Ans) :
    (moreAnswers bs s).answers = r :: (as ++ bs) := by rw [moreAnswers, h]; rfl

theorem drive_moreAnswers (as bs : List Ans) (l : Line) (v : Level) (e : Event) (s : State) :
    (((moreAnswers bs s).setAnswers (as ++ bs)).setLatch l v).record e =
      moreAnswers bs (((s.setAnswers as).setLatch l v).record e) := by
  cases l <;> rfl

theorem goOn_of_not_running {s : State} (h : running s = false) : goOn s = s := by simp [goOn, h]

/-- A state that waits goes on with the steps it waits at. -/
theorem goOn_moreAnswers_suspend {s : State} (hrun : running s = true) (bs : List Ans) (ops : List MicroOp) :
    goOn (moreAnswers bs (suspend ops s)) = run ops (moreAnswers bs s) :=
  calc goOn (moreAnswers bs (suspend ops s))
      = run ops (suspend ops (moreAnswers bs s)) := if_pos hrun
    _ = run ops (moreAnswers bs s) := run_suspend ops ops _

/-- A run that has more answers from the start is the run that goes on when they come. -/
theorem Runs.late {ops : List MicroOp} {s t : State} (h : Runs ops s t) (hrun : running s = true) (bs : List Ans) :
    run ops (moreAnswers bs s) = goOn (moreAnswers bs t) := by
  induction h with
  | nil s => rfl
  | wait => exact (goOn_moreAnswers_suspend hrun bs _).symm
  | build _ ih => exact ih hrun
  | drive_ok h _ ih =>
    rw [run_drive_ok (moreAnswers_answers h bs), drive_moreAnswers]
    exact ih (by simpa [running] using hrun)
  | drive_fail h =>
    rw [run_drive_fail (moreAnswers_answers h bs), drive_moreAnswers]
    rfl
  | write_ok h _ ih =>
    rw [run_write_ok (moreAnswers_answers h bs)]
    exact ih hrun
  | @write_fail_wait mode ops s h =>
    rw [run_write_fail (moreAnswers_answers h bs)]
    exact (goOn_moreAnswers_suspend (s := (s.setAnswers []).record (.bus s.fb mode .fail)) hrun bs [.cleanUp]).symm
  | @write_fail mode ops s r as h =>
    rw [run_write_fail (moreAnswers_answers h bs), cleanUp_answers (r := r) (as := as ++ bs) rfl]
    rfl
  | cleanUp_wait => exact (goOn_moreAnswers_suspend hrun bs [.cleanUp]).symm
  | cleanUp h =>
    rw [run_cleanUp, cleanUp_answers (moreAnswers_answers h bs), drive_moreAnswers]
    rfl

/-- `Runs.late` of `run`. -/
theorem run_late {s : State} (hrun : running s = true) (ops : List MicroOp) (bs : List Ans) :
    run ops (moreAnswers bs s) = goOn (moreAnswers bs (run ops s)) :=
  (runs_run ops s).late hrun bs

theorem step_moreAnswers {s t : State} (hr : s.rst = false) (h : step s = .next t) (bs : List Ans) :
    step (moreAnswers bs s) = .next (goOn (moreAnswers bs t)) := by
  obtain ⟨hr', -⟩ | ⟨-, hp, rfl⟩ | ⟨-, hrun, rfl⟩ | ⟨-, hrest, rfl⟩ | ⟨-, hp, ⟨w, ws, hc, hd⟩, rfl⟩ |
    ⟨-, hp, w, ws, i, r, hc, hd, hrow, rfl⟩ := step_cases h
  · exact absurd hr (by simp [hr'])
  · rw [startInit, ← run_late rfl]
    exact step_of_unbuilt (s := moreAnswers bs s) hr hp
  · rw [resume, ← run_late hrun]
    exact step_of_running (s := moreAnswers bs s) hr hrun
  · rw [goOn_of_not_running]
    · exact step_of_resting (s := moreAnswers bs t) hr hrest
    · obtain hp | ⟨hp, -⟩ := hrest <;> simp [running, moreAnswers, hp]
  · rw [goOn_of_not_running (by simp [running, moreAnswers, hp])]
    exact step_of_illegal (s := moreAnswers bs s) hr hp hc hd
  · rw [← run_late rfl]
    exact step_of_command (s := moreAnswers bs s) hr hp hc hd ((commandRow_congr i (by rfl)).trans hrow)

/-- Settles O59: the step with all the answers is the step that goes on with the late ones (`step_moreAnswers`). -/
theorem lateAnswersChangeNothing : Obligations.LateAnswersChangeNothing := by
  intro s t u as bs hr ht hu
  have hlate : u = goOn (moreAnswers bs t) :=
    Host.Outcome.next.inj (hu.symm.trans (step_moreAnswers (s := s.setAnswers as) hr ht bs))
  subst hlate
  obtain ⟨-, hrst, -⟩ := traceOnlyGrows _ t ht
  refine ⟨fun hrun => ?_, fun hrun => goOn_of_not_running hrun⟩
  rw [goOn, if_pos (show running (moreAnswers bs t) = true from hrun)]
  exact step_of_running (s := moreAnswers bs t) (hrst.trans hr) hrun

/-! ### The primitives (R114, R115, R117) -/

/-- Settles O14, answer by answer. -/
theorem drivePinSetsItsLatchAndRecords : Obligations.DrivePinSetsItsLatchAndRecords :=
  fun _ _ _ => ⟨drivePin_waits, fun _ => drivePin_answers, fun _ => drivePin_answers⟩

/-- Settles O15, without an answer and with one. -/
theorem busWriteRecordsTheFrameAndNothingElse : Obligations.BusWriteRecordsTheFrameAndNothingElse :=
  fun _ _ => ⟨busWrite_waits, fun _ _ => busWrite_answers⟩

/-- Settles O16: what a run leaves in the frame register was there or is a frame that one of its steps loads (`Runs.fb`). -/
theorem buildFrameWritesOnlyTheFrameRegister : Obligations.BuildFrameWritesOnlyTheFrameRegister :=
  fun _ _ _ _ ops s => ⟨rfl, rfl, fun hops => (runs_run ops s).fb.resolve_right (hops _)⟩

/-! ### A run up to a question (R113)

`cleanRun pre s` is the state after the steps `pre`, all answered `ok`; `okEvents s.fb pre` are their events, one per answer. -/

/-- Steps whose answers are `ok` lead to the clean state before the steps behind them. -/
theorem run_clean {pre : List MicroOp} {s : State} {rest : List Ans} (hpre : MicroOp.cleanUp ∉ pre)
    (h : s.answers = List.replicate (okEvents s.fb pre).length .ok ++ rest) (ops : List MicroOp) :
    run (pre ++ ops) s = run ops (cleanRun pre s) ∧ Advanced s (okEvents s.fb pre) rest (cleanRun pre s) := by
  induction pre generalizing s with
  | nil => exact ⟨rfl, ⟨(List.append_nil _).symm, h, rfl, rfl, rfl, rfl⟩⟩
  | cons op pre ih =>
    have hpre' : MicroOp.cleanUp ∉ pre := fun hmem => hpre (List.mem_cons_of_mem _ hmem)
    cases op with
    | build f =>
      obtain ⟨hrun, hadv⟩ := ih hpre' (s := s.buildFrame f) h
      exact ⟨hrun, (advanced_buildFrame f s).trans hadv⟩
    | drive l v =>
      have hnext := advanced_drive l v .ok (levelOf v) s.answers.tail s
      obtain ⟨hrun, hadv⟩ := ih hpre' (hnext.answers.trans (by simp [h, okEvents, List.replicate_succ]))
      refine ⟨(run_drive_ok (as := s.answers.tail) (by simp [h, okEvents, List.replicate_succ])).trans hrun, ?_⟩
      simpa [okEvents, cleanRun] using hnext.trans hadv
    | write mode =>
      have hnext := advanced_write mode .ok s.answers.tail s
      obtain ⟨hrun, hadv⟩ := ih hpre' (hnext.answers.trans (by simp [h, okEvents, List.replicate_succ]))
      refine ⟨(run_write_ok (as := s.answers.tail) (by simp [h, okEvents, List.replicate_succ])).trans hrun, ?_⟩
      simpa [okEvents, cleanRun] using hnext.trans hadv
    | cleanUp => exact absurd List.mem_cons_self hpre

/-! ### The address assertion (R110, R116) -/

/-- The drives of some of the lines to a pattern. -/
def drivesTo (p : Pattern) (ls : List Line) : List MicroOp := ls.map fun l => .drive l (p.at l)

theorem okEvents_drivesTo (fb : Frame) (p : Pattern) (ls : List Line) :
    okEvents fb (drivesTo p ls) = ls.map fun l => .pin l (p.at l) .ok := by
  induction ls with
  | nil => rfl
  | cons l ls ih => exact congrArg _ ih

/-- `run_clean` for drives. -/
theorem run_drivesTo {ls : List Line} {s : State} {rest : List Ans} (h : s.answers = List.replicate ls.length .ok ++ rest)
    (p : Pattern) (ops : List MicroOp) :
    run (drivesTo p ls ++ ops) s = run ops (cleanRun (drivesTo p ls) s) ∧
      Advanced s (ls.map fun l => .pin l (p.at l) .ok) rest (cleanRun (drivesTo p ls) s) := by
  rw [← okEvents_drivesTo s.fb]
  exact run_clean (by simp [drivesTo]) (by rwa [okEvents_drivesTo, List.length_map]) ops

theorem cleanRun_drivesTo_fb (p : Pattern) (ls : List Line) (s : State) : (cleanRun (drivesTo p ls) s).fb = s.fb := by
  induction ls generalizing s with
  | nil => rfl
  | cons l ls ih => exact (ih _).trans (by simp)

theorem cleanRun_drivesTo_latch (p : Pattern) (ls : List Line) (s : State) (k : Line) :
    (cleanRun (drivesTo p ls) s).latch k = if k ∈ ls then levelOf (p.at k) else s.latch k := by
  induction ls generalizing s with
  | nil => rfl
  | cons l ls ih =>
    refine (ih _).trans ?_
    by_cases hk : k = l
    · subst hk; simp
    · simp [hk]

theorem cleanRun_assertAddr (order : DriveOrder) (p : Pattern) (s : State) :
    cleanRun (assertAddr order p) s =
      { s with
        a0 := levelOf p.l0, a1 := levelOf p.l1, a2 := levelOf p.l2
        trace := s.trace ++ addrEvents order p
        answers := s.answers.drop 3 } := by
  cases order <;>
    simp [assertAddr, driveLines, cleanRun, addrEvents, Pattern.at, State.setAnswers, State.setLatch, State.record,
      ← List.drop_one]

theorem driveLines_length (order : DriveOrder) : (driveLines order).length = 3 := by cases order <;> rfl
theorem driveLines_nodup (order : DriveOrder) : (driveLines order).Nodup := by cases order <;> decide
theorem cs_not_mem_driveLines (order : DriveOrder) : Line.cs ∉ driveLines order := by cases order <;> decide

/-- The address assertion up to and behind one of its lines. -/
theorem assertAddr_append_of_lines {order : DriveOrder} {ls ls' : List Line} {l : Line}
    (h : driveLines order = ls ++ l :: ls') (p : Pattern) (ops : List MicroOp) :
    assertAddr order p ++ ops = drivesTo p ls ++ .drive l (p.at l) :: (drivesTo p ls' ++ ops) := by
  simp [assertAddr, drivesTo, h]

/-- Settles O17: three drives answered `ok`, whose clean end is the same state for every order (`cleanRun_assertAddr`). -/
theorem assertAddrDrivesAllThreeLines : Obligations.AssertAddrDrivesAllThreeLines := by
  intro order p ops s rest h
  obtain ⟨hrun, -⟩ := run_drivesTo (ls := driveLines order) (s := s) (rest := rest)
    (by rw [h, driveLines_length]; rfl) p ops
  refine hrun.trans (congrArg _ ((cleanRun_assertAddr order p s).trans ?_))
  rw [h]
  rfl

/-- Settles O18: the lines before the failing one are driven clean; no line stands twice in the order, so the failing drive
leaves their latches alone, and the lines behind it are driven by nothing. -/
theorem assertAddrStopsAtTheFirstFailure : Obligations.AssertAddrStopsAtTheFirstFailure := by
  intro order p ops s rest ls l ls' hlines hflt h
  obtain ⟨hrun, hadv⟩ := run_drivesTo (ls := ls) (h.trans (by rw [List.map_const'])) p
    (.drive l (p.at l) :: (drivesTo p ls' ++ ops))
  rw [assertAddr_append_of_lines hlines, hrun, run_drive_fail hadv.answers]
  generalize ht : raise .pin _ = t
  have hcs := hlines ▸ cs_not_mem_driveLines order
  have hnodup := hlines ▸ driveLines_nodup order
  simp only [List.mem_append, List.mem_cons, not_or] at hcs
  obtain ⟨hcsls, hcsl, -⟩ := hcs
  obtain ⟨-, hbehind, hdisjoint⟩ := List.nodup_append'.mp hnodup
  obtain ⟨hl', -⟩ := List.nodup_cons.mp hbehind
  have hlatch (k : Line) (hk : k ≠ l) : t.latch k = if k ∈ ls then levelOf (p.at k) else s.latch k := by
    simp [← ht, hk, cleanRun_drivesTo_latch]
  refine ⟨?phase, ?fault, ?result, ?todo, ?answers, ?trace, fun k hk => ?before, ?failed,
    fun k hk => ?behind, ?select, ?frame, ?cache⟩
  case before => rw [hlatch k fun h => hdisjoint hk (h ▸ List.mem_cons_self), if_pos hk]
  case behind => rw [hlatch k fun h => hl' (h ▸ hk), if_neg fun h => hdisjoint h (List.mem_cons_of_mem _ hk)]
  case select => exact (hlatch .cs hcsl).trans (if_neg hcsls)
  all_goals simp [← ht, hadv.flt, hflt, hadv.trace, hadv.op, hadv.g, cleanRun_drivesTo_fb, raisedFault, faultOf, fatalOf]

/-! ### The framed transfer (R118) -/

/-- A drive of chip-select, as a record update. -/
theorem drive_cs (as : List Ans) (v : Level) (e : Event) (s : State) :
    ((s.setAnswers as).setLatch .cs v).record e = { s with cs := v, trace := s.trace ++ [e], answers := as } := rfl

theorem record_setAnswers (as : List Ans) (e : Event) (s : State) :
    (s.setAnswers as).record e = { s with trace := s.trace ++ [e], answers := as } := rfl

/-- Settles O19, path by path, each the drives and the write with their answers. -/
theorem framedTransferTakesOneOfFourPaths : Obligations.FramedTransferTakesOneOfFourPaths := by
  intro mode ops s rest hflt
  rw [show framedTransfer mode ++ ops = .drive .cs false :: .write mode :: .drive .cs true :: ops from rfl]
  refine ⟨fun h => ?clean, fun h => ?selectFails, fun q h => ?writeFails, fun h => ?deselectFails⟩
  case clean =>
    rw [run_drive_ok h, run_write_ok rfl, run_drive_ok rfl]
    simp [drive_cs, record_setAnswers, transferEvents, levelOf]
  case selectFails => exact run_drive_fail h
  case writeFails =>
    rw [run_drive_ok h, run_write_fail rfl, cleanUp_answers rfl]
    simp [drive_cs, record_setAnswers]
  case deselectFails =>
    rw [run_drive_ok h, run_write_ok rfl, run_drive_fail rfl]
    simp [drive_cs, record_setAnswers]

/-! ### Commands (R112, R119, R120) -/

/-- Settles O39: that is the move of a `READY` block (`nextMove`), and taking the word leaves the words behind it. -/
theorem stepRunsTheDecodedCommand : Obligations.StepRunsTheDecodedCommand := by
  intro s w ws i hr hp hc hd
  simp [step, nextMove, hr, hp, hc, hd, takeCommand]

/-- A command as it begins, its cache already written (R94, R120). -/
def started (r : CommandRow) (s : State) : State := { s with ph := .busy, op := r.op, g := r.g }

/-- A command after its three address drives were answered `ok`, `rest` being the answers behind them (R112). -/
def addressed (r : CommandRow) (rest : List Ans) (s : State) : State :=
  { s with
    g := r.g, a0 := levelOf r.pattern.l0, a1 := levelOf r.pattern.l1, a2 := levelOf r.pattern.l2
    ph := .busy, op := r.op, trace := s.trace ++ addrEvents s.order r.pattern, answers := rest }

theorem exec_started {i : Instr} {r : CommandRow} {s : State} (hrow : commandRow i s = some r) (hp : s.ph = .ready) :
    exec i s = .next (run (memWrite s.order r.pattern r.frame r.mode) (started r s)) := exec_row hrow hp

theorem exec_addressed {i : Instr} {r : CommandRow} {s : State} {rest : List Ans} (hrow : commandRow i s = some r)
    (hp : s.ph = .ready) (h : s.answers = .ok :: .ok :: .ok :: rest) :
    exec i s = .next (run (emitFrame r.frame r.mode) (addressed r rest s)) :=
  (exec_row hrow hp).trans (congrArg _ (assertAddrDrivesAllThreeLines s.order r.pattern (emitFrame r.frame r.mode)
    (started r s) rest h))

/-- The row of a command as a frame row: inside the command's operation it emits the command's frame (R55 to R57). -/
theorem exists_frame_of_commandRow {i : Instr} {r : CommandRow} {s : State} (h : commandRow i s = some r) :
    ∃ frame : Instr, frame.isCommand = false ∧ frameOfWord (encode frame) = r.frame ∧
      ∀ t : State, running t = true → t.op = r.op → exec frame t = .next (run (emitFrame r.frame r.mode ++ t.todo) t) := by
  have hemits (emits : Op → Bool) (he : emits r.op = true) (t : State) (hrun : running t = true) (hop : t.op = r.op) :
      emission (emits t.op) r.frame t = .next (run (emitFrame r.frame r.mode ++ t.todo) t) := by
    obtain ⟨-, -, hmode, -⟩ := commandRow_legal h
    rw [hop, hmode, ← hop]
    exact emission_of_emits hrun (hop ▸ he) r.frame
  cases i <;> cases h
  case setg.refl a m => exact ⟨.frameGate m, rfl, frameOfWord_toWord _, hemits (emitsGateFrame m) rfl⟩
  case ghi.refl a ch =>
    exact ⟨.frameGate (s.gate a ||| gateBit ch), rfl, frameOfWord_toWord _, hemits (emitsGateFrame _) rfl⟩
  case glo.refl a ch =>
    exact ⟨.frameGate (s.gate a &&& ~~~gateBit ch), rfl, frameOfWord_toWord _, hemits (emitsGateFrame _) rfl⟩
  case cvraw.refl c ch v => exact ⟨.frameCvraw ch v, rfl, frameOfWord_toWord _, hemits emitsRawFrame rfl⟩
  case cvpol.refl c p => exact ⟨.frameCvpol p, rfl, frameOfWord_toWord _, hemits emitsPolFrame rfl⟩

/-- Settles O29: the address assertion, then the emission that the frame row of the command's format runs. -/
theorem commandEndsInItsFrame : Obligations.CommandEndsInItsFrame := by
  intro i r s rest hrow hp htodo h
  obtain ⟨frame, hi, hframe, hexec⟩ := exists_frame_of_commandRow hrow
  refine ⟨frame, hi, hframe, (exec_addressed hrow hp h).trans ?_⟩
  rw [← List.append_nil (emitFrame r.frame r.mode), ← htodo]
  exact (hexec (addressed r rest s) rfl rfl).symm

/-! ### Commands that fail (R122) -/

/-- Settles O31: rows 1 to 3 drive by drive in the default order, rows 4 to 6 as the failure paths of the framed transfer (O19)
behind the address assertion. -/
theorem commandFailsAsTheTableSays : Obligations.CommandFailsAsTheTableSays := by
  intro i r s rest hrow hp hflt horder
  have hstart : exec i s = .next (run (.drive .a0 r.pattern.l0 :: .drive .a1 r.pattern.l1 :: .drive .a2 r.pattern.l2 ::
      emitFrame r.frame r.mode) (started r s)) := by
    rw [exec_started hrow hp, horder]
    rfl
  have htransfer (as : List Ans) :=
    framedTransferTakesOneOfFourPaths r.mode [] ((addressed r as s).buildFrame r.frame) rest hflt
  have hexec {as : List Ans} {t : State} (h : s.answers = .ok :: .ok :: .ok :: as)
      (ht : run (framedTransfer r.mode ++ []) ((addressed r as s).buildFrame r.frame) = t) : exec i s = .next t :=
    (exec_addressed hrow hp h).trans (congrArg _ ht)
  refine ⟨fun h => ?a0, fun h => ?a1, fun h => ?a2, fun h => ?select, fun q h => ?write, fun h => ?deselect⟩
  case a0 =>
    rw [hstart, run_drive_fail (s := started r s) h]
    simp [raise, raisedFault, failed, started, hflt, State.setLatch, State.setAnswers, State.record]
  case a1 =>
    rw [hstart, run_drive_ok (s := started r s) h, run_drive_fail rfl]
    simp [raise, raisedFault, failed, started, hflt, State.setLatch, State.setAnswers, State.record]
  case a2 =>
    rw [hstart, run_drive_ok (s := started r s) h, run_drive_ok rfl, run_drive_fail rfl]
    simp [raise, raisedFault, failed, started, hflt, State.setLatch, State.setAnswers, State.record]
  case select =>
    obtain ⟨-, hfail, -, -⟩ := htransfer (.fail :: rest)
    rw [hexec h (hfail rfl)]
    simp [raise, raisedFault, failed, addressed, hflt, horder]
  case write =>
    obtain ⟨-, -, hfail, -⟩ := htransfer (.ok :: .fail :: q :: rest)
    rw [hexec h (hfail q rfl)]
    simp [raise, raisedFault, failed, addressed, hflt, horder]
  case deselect =>
    obtain ⟨-, -, -, hfail⟩ := htransfer (.ok :: .ok :: .fail :: rest)
    rw [hexec h (hfail rfl)]
    simp [raise, raisedFault, failed, addressed, hflt, horder]

/-! ### Commands that wait (R113) -/

/-- A run that waits has taken every answer, and goes on from its position to where it is. -/
theorem run_waiting {ops : List MicroOp} {s t : State} (ht : t = run ops s) (hrun : running s = true)
    (hrunt : running t = true) : t.answers = [] ∧ resume t = t := by
  subst ht
  constructor
  · obtain ⟨hp, -⟩ | ⟨hp, -⟩ | ⟨-, -, hanswers, -⟩ := (runs_run ops s).end
    · simp [running, hp] at hrunt
    · simp [running, hp] at hrunt
    · exact hanswers
  · have hlate := run_late hrun ops []
    simpa [moreAnswers, State.setAnswers, goOn, hrunt] using hlate.symm

/-- With fewer than three answers, all `ok`, a command waits in its address assertion. -/
theorem exec_waits_addressing {i : Instr} {r : CommandRow} {s : State} {k : Nat} (hrow : commandRow i s = some r)
    (hp : s.ph = .ready) (hk : k < 3) (h : s.answers = List.replicate k .ok) :
    ∃ t, exec i s = .next t ∧ t.ph = .busy ∧ t.fb = s.fb := by
  have hk' : k < (driveLines s.order).length := by rwa [driveLines_length]
  have hlines : driveLines s.order =
      (driveLines s.order).take k ++ (driveLines s.order)[k] :: (driveLines s.order).drop (k + 1) := by
    rw [← List.drop_eq_getElem_cons hk', List.take_append_drop]
  obtain ⟨hrun, hadv⟩ := run_drivesTo (s := started r s) (ls := (driveLines s.order).take k) (rest := [])
    (by rw [List.append_nil, List.length_take_of_le hk'.le]; exact h) r.pattern
    (.drive _ (r.pattern.at _) :: (drivesTo r.pattern ((driveLines s.order).drop (k + 1)) ++ emitFrame r.frame r.mode))
  rw [exec_started hrow hp, memWrite, assertAddr_append_of_lines hlines, hrun, run_drive_waits hadv.answers]
  exact ⟨_, rfl, hadv.ph, cleanRun_drivesTo_fb ..⟩

/-- With fewer than three answers, all `ok`, the emission of a frame waits with the frame built; after one answer it waits for
the bus write, with chip-select low. -/
theorem run_emitFrame_waits {f : Frame} {mode : Mode} {s : State} {k : Nat} (hk : k < 3)
    (h : s.answers = List.replicate k .ok) :
    (run (emitFrame f mode) s).ph = s.ph ∧ (run (emitFrame f mode) s).fb = f ∧
      (k = 1 → (run (emitFrame f mode) s).cs = .low) := by
  rw [show run (emitFrame f mode) s = run [.drive .cs false, .write mode, .drive .cs true] (s.buildFrame f) from rfl]
  match k with
  | 0 =>
    rw [run_drive_waits (s := s.buildFrame f) h]
    exact ⟨rfl, rfl, nofun⟩
  | 1 =>
    rw [run_drive_ok (s := s.buildFrame f) h, run_write_waits rfl]
    exact ⟨rfl, rfl, fun _ => rfl⟩
  | 2 =>
    rw [run_drive_ok (s := s.buildFrame f) h, run_write_ok rfl, run_drive_waits rfl]
    exact ⟨rfl, rfl, nofun⟩

/-- Settles O32: the command waits in its address assertion or in the emission of its frame; either way it is a run that
waits (`run_waiting`). -/
theorem commandWaitsForAnAnswer : Obligations.CommandWaitsForAnAnswer := by
  intro i r s k hrow hp hr hk h
  obtain ⟨t, hexec, hbusy, hcs, hold, hnew⟩ : ∃ t, exec i s = .next t ∧ t.ph = .busy ∧ (k = 4 → t.cs = .low) ∧
      (k < 3 → t.fb = s.fb) ∧ (3 ≤ k → t.fb = r.frame) := by
    by_cases hk3 : k < 3
    · obtain ⟨t, hexec, hbusy, hfb⟩ := exec_waits_addressing hrow hp hk3 h
      exact ⟨t, hexec, hbusy, by omega, fun _ => hfb, by omega⟩
    · obtain ⟨j, rfl⟩ := Nat.exists_eq_add_of_le (Nat.le_of_not_lt hk3)
      have haddr := exec_addressed (rest := List.replicate j .ok) hrow hp (h.trans (by rw [List.replicate_add]; rfl))
      obtain ⟨hph, hfb, hcs⟩ := run_emitFrame_waits (f := r.frame) (mode := r.mode)
        (s := addressed r (List.replicate j .ok) s) (k := j) (by omega) rfl
      exact ⟨_, haddr, hph, fun hj => hcs (by omega), by omega, fun _ => hfb⟩
  have ht : t = run (memWrite s.order r.pattern r.frame r.mode) (started r s) :=
    Host.Outcome.next.inj (hexec.symm.trans (exec_started hrow hp))
  have hrun : running t = true := running_iff.mpr (.inr hbusy)
  obtain ⟨hanswers, hresume⟩ := run_waiting ht rfl hrun
  obtain ⟨hg, -, hrst, -, hop⟩ := run_frame (memWrite s.order r.pattern r.frame r.mode) (started r s)
  rw [← ht] at hg hrst hop
  refine ⟨t, hexec, hbusy, hop, hg, hanswers, hcs, hold, hnew, ?_⟩
  rw [step_of_running (hrst.trans hr) hrun, hresume]

end Sys2Proof.Machine
end

section
/-! SUPPORT and proofs. The exceptions (60_exceptions.md): what `raise` leaves, the one cause that a faulted command reports,
and the block that rests. -/

namespace Sys2Proof.Machine

/-! ### Entering the fault (R134, R135) -/

/-- Without an earlier fault `FLT` takes the cause. -/
theorem raisedFault_none (x : Cause) : raisedFault .none x = faultOf x := rfl

/-- An earlier fault is kept. -/
theorem raisedFault_of_ne_none {old : FaultReg} (h : old ≠ .none) (x : Cause) : raisedFault old x = old := by
  cases old with
  | none => exact absurd rfl h
  | pin => rfl
  | bus => rfl

/-- Settles O20: the two cases of `FLT` (`raisedFault_none`, `raisedFault_of_ne_none`); the other registers are as `raise`
writes them. -/
theorem raiseEntersTheFault : Obligations.RaiseEntersTheFault := by
  intro s
  refine ⟨fun h => ?pin, fun h => ?bus, fun x h => ?kept⟩
  case pin => rw [raise, h, raisedFault_none]; rfl
  case bus => rw [raise, h, raisedFault_none]; rfl
  case kept => rw [raise, raisedFault_of_ne_none h]

/-! ### The cause of a faulted command (R138, R139) -/

/-- A command starts without a clean-up drive ahead: only its own failed bus write leads to one (R118 (b)). -/
theorem cleanUp_not_mem_memWrite {order : DriveOrder} {p : Pattern} {f : Frame} {mode : Mode} :
    MicroOp.cleanUp ∉ memWrite order p f mode := by
  simp [memWrite, assertAddr, emitFrame, framedTransfer]

/-- Settles O38: a command is the run of one `MemWrite`, and a run that raises has one cause (`Runs.faulted`), which is `BUS`
exactly after a failed bus write, as the step list of `MemWrite` does not start at the clean-up drive. -/
theorem faultedCommandReportsOneCause : Obligations.FaultedCommandReportsOneCause := by
  intro i r s t hrow hp hflt h ht
  obtain ⟨x, es, htrace, hres, hraised, hpin, hbus⟩ := (runs_of_exec hrow hp h).faulted (by simp) ht
  have hfault : t.flt = faultOf x := by rw [hraised, hflt, raisedFault_none]
  refine ⟨es, by rw [hres, htrace], ?_⟩
  cases x with
  | pin => exact .inr ⟨hfault, hres, hpin rfl⟩
  | bus => exact .inl ⟨hfault, hres, (hbus rfl).resolve_right cleanUp_not_mem_memWrite⟩

/-! ### The block that rests (R137, R163) -/

/-- Settles O43: the move of a faulted block, and of an idle one without a command, is to rest (`step_of_resting`). -/
theorem faultedOrIdleBlockRests : Obligations.FaultedOrIdleBlockRests := fun _ => step_of_resting

end Sys2Proof.Machine
end
